-- ==== Sys2Proof/Word.lean ====
section
/-! DEFINITION. The widths the block works with (spec/00_scope.md R8: a byte is 8 bits, everything is unsigned). -/

namespace Sys2Proof

/-- A byte (R8). -/
abbrev Byte := BitVec 8

/-- A register address of the remote device: 4 bits (R30). -/
abbrev RegAddr := BitVec 4

end Sys2Proof
end

