-- ==== Sys2Proof/Config.lean ====
section
/-! DEFINITION. What a build fixes (spec/00_scope.md R5 to R7) and the values nothing fixes. -/

namespace Sys2Proof

/-- The two build variants (R5): `A` is the lenient one, `B` the strict one with a terminal-control register. -/
inductive Variant where
  | A
  | B
deriving DecidableEq, Repr

/-- The order of bits on the wire (R34). It belongs to the transport; nothing reads it. -/
inductive BitOrder where
  | msbFirst
  | lsbFirst
deriving DecidableEq, Repr

/-- The parameters of R7 that a build chooses. The defaults are those of R7: addresses and codes are
PRESUMED (log entries 2 and 3), the dummy byte is the spec's decision D4 (entry 4), the variant and the
initial value of the default build are a DESIGN CHOICE (entry 1). -/
structure Config where
  variant      : Variant := .B
  initValue    : Byte := 64#8
  addrWiper0   : RegAddr := 0x0#4
  addrWiper1   : RegAddr := 0x1#4
  addrEeprom0  : RegAddr := 0x2#4
  addrEeprom1  : RegAddr := 0x3#4
  addrTcon     : RegAddr := 0x4#4
  cmdWrite     : BitVec 2 := 0b00#2
  cmdIncrement : BitVec 2 := 0b01#2
  cmdDecrement : BitVec 2 := 0b10#2
  cmdRead      : BitVec 2 := 0b11#2
  dummyByte    : Byte := 0x00#8
  maxSckHz     : Option Nat := none
  bitOrder     : BitOrder := .msbFirst
deriving DecidableEq, Repr

/-- The build `State.reset` stands for (log entry 1). -/
def Config.default : Config := {}

/-- `WIPER_MIN` (R6). -/
abbrev wiperMin : Byte := 0#8
/-- `WIPER_MAX`: 128, which needs the eighth bit (R6, R11). -/
abbrev wiperMax : Byte := 128#8
/-- `NUM_WIPER_SHADOWS` (R7, R12). -/
abbrev numWiperShadows : Nat := 1
/-- `TC_A`, the mask of terminal A in the terminal-connection byte (R7, R14). -/
abbrev tcMaskA : Byte := 0x08#8
/-- `TC_W`, the mask of the wiper terminal (R7, R14). -/
abbrev tcMaskW : Byte := 0x04#8
/-- `TC_B`, the mask of terminal B (R7, R14). -/
abbrev tcMaskB : Byte := 0x02#8
/-- `TC_ALL`: every terminal connected (R7, R14). -/
abbrev tcAll : Byte := 0xFF#8

/-! Free values: nothing in Lean can evaluate one or prove what it is (log entries 6, 7, 15 and 23). -/

/-- Whether the transport completes the primitive asked for at its `n`-th answer (R82, U4). -/
opaque Config.freeDone : Nat → Bool
/-- Whether the byte primitive of the `n`-th answer succeeds (R81, U1). -/
opaque Config.freeOk : Nat → Bool
/-- The byte the transport drives with its `n`-th answer (U2). -/
opaque Config.freeByte : Nat → Byte
/-- The `n`-th unspecified `rdata` (R62, U6). -/
opaque Config.freeRdata : Nat → Byte
/-- What a register of the reference peer holds before anything has written it (R44). -/
opaque Config.devInit : RegAddr → Byte
/-- The speed level a Fan Adapter is created with (R143, N25). -/
opaque Config.freeLevel : Int

end Sys2Proof
end

