-- ==== Sys2Proof/Syntax.lean ====
section
/-! DEFINITION. The instructions: one constructor for each row of spec/opcode_table.json.

The first eight are host requests (spec/30_encoding.md R59, R61). Bits a request ignores are operands named
`x…`, because the block latches the whole operand byte (R16). The other nine are bus command bytes (R50,
R54), each standing for the frame it opens as the device side takes it (R45, log entry 11); a Write frame carries its data
byte (R52). -/

namespace Sys2Proof

inductive Instr where
  /-- WRW v: write the wiper (R100). -/
  | wrw (v : Byte)
  /-- RDW: read the wiper (R110). -/
  | rdw (x : Byte)
  /-- INC: step the wiper up (R120). -/
  | inc (x : Byte)
  /-- DEC: step the wiper down (R121). -/
  | dec (x : Byte)
  /-- WTC a, w, b: write the terminal connection (R130); `xh` is `arg[7:4]`, `xl` is `arg[0]`. -/
  | wtc (a w b : Bool) (xh : BitVec 4) (xl : Bool)
  /-- ENT: connect all terminals (R131). -/
  | ent (x : Byte)
  /-- DIST: disconnect all terminals (R132). -/
  | dist (x : Byte)
  /-- The reserved host opcode 111 (R64). -/
  | reserved (x : Byte)
  /-- BUS.WRITE: a Write frame to any address (R42). -/
  | busWrite (addr : RegAddr) (dx : BitVec 2) (data : Byte)
  /-- BUS.INCREMENT: an Increment frame to any address (R52). -/
  | busIncrement (addr : RegAddr) (dx : BitVec 2)
  /-- BUS.DECREMENT: a Decrement frame to any address (R52). -/
  | busDecrement (addr : RegAddr) (dx : BitVec 2)
  /-- BUS.READ: a Read frame to any address (R43). -/
  | busRead (addr : RegAddr) (dx : BitVec 2)
  /-- BUS.WRW: the frame WRW emits (R54, R100). -/
  | busWrw (data : Byte)
  /-- BUS.INC: the frame INC emits (R54, R120). -/
  | busInc
  /-- BUS.DEC: the frame DEC emits (R54, R121). -/
  | busDec
  /-- BUS.RDW: the frame RDW emits (R54, R110). -/
  | busRdw
  /-- BUS.WTC: the frame WTC, ENT and DIST emit (R54, R130). -/
  | busWtc (data : Byte)
deriving DecidableEq, Repr

end Sys2Proof
end

