-- ==== Sys2Proof/WellFormed.lean ====
section
/-! DEFINITION. Which configurations and which instructions are well formed. -/

namespace Sys2Proof

/-- The register addresses in the order of R31. -/
def Config.addresses (c : Config) : List RegAddr :=
  [c.addrWiper0, c.addrWiper1, c.addrEeprom0, c.addrEeprom1, c.addrTcon]

/-- The command codes in the order of R51. -/
def Config.codes (c : Config) : List (BitVec 2) :=
  [c.cmdWrite, c.cmdIncrement, c.cmdDecrement, c.cmdRead]

/-- R7: the initial value lies in [0, 128] (D13, U19), the five addresses are distinct, the four codes are
distinct. -/
abbrev Config.wf (c : Config) : Prop :=
  c.initValue ≤ wiperMax ∧ c.addresses.Nodup ∧ c.codes.Nodup

/-- Every byte has one instruction: a generic bus row does not stand for one of the five bytes of R54, which
have rows of their own (log entry 13). A host request is always well formed (R61). -/
abbrev Instr.wf (c : Config) : Instr → Prop
  | .busWrite addr dx _ => ¬ (dx = 0#2 ∧ (addr = c.addrWiper0 ∨ addr = c.addrTcon))
  | .busIncrement addr dx => ¬ (dx = 0#2 ∧ addr = c.addrWiper0)
  | .busDecrement addr dx => ¬ (dx = 0#2 ∧ addr = c.addrWiper0)
  | .busRead addr dx => ¬ (dx = 0#2 ∧ addr = c.addrWiper0)
  | .wrw _ => True
  | .rdw _ => True
  | .inc _ => True
  | .dec _ => True
  | .wtc _ _ _ _ _ => True
  | .ent _ => True
  | .dist _ => True
  | .reserved _ => True
  | .busWrw _ => True
  | .busInc => True
  | .busDec => True
  | .busRdw => True
  | .busWtc _ => True

end Sys2Proof
end

