-- ==== Sys2Proof/Decode.lean ====
section
/-! DEFINITION. The command encoder of the block (spec/40_command_encoder.md), the decoder of the words at its
ports and their encoder (spec/30_encoding.md R50 to R54, R61). -/

namespace Sys2Proof

/-- The command encoder (R70): `(address << 4) | (command & 0b1100) | (extra_data_bits & 0b11)` on bytes. -/
def commandByte (address : RegAddr) (command extra : Byte) : Byte :=
  (address.setWidth 8 <<< 4) ||| (command &&& 0b00001100#8) ||| (extra &&& 0b00000011#8)

/-- A 2-bit command code moved to where the command encoder expects it, bits 3:2 (R51, R72). -/
def preShift (code : BitVec 2) : Byte :=
  code.setWidth 8 <<< 2

/-- The command byte of a register address, a command code and the `dx` field (R50). -/
def busByte (addr : RegAddr) (code : BitVec 2) (dx : BitVec 2) : Byte :=
  commandByte addr (preShift code) (dx.setWidth 8)

/-- The `addr` field of a command byte (R50). -/
def addrField (c : Byte) : RegAddr := c.extractLsb' 4 4
/-- The `cmd` field of a command byte (R50). -/
def cmdField (c : Byte) : BitVec 2 := c.extractLsb' 2 2
/-- The `dx` field of a command byte (R50). -/
def dxField (c : Byte) : BitVec 2 := c.extractLsb' 0 2

/-- The command byte of WRW, `encode(ADDR_WIPER0, CMD_WRITE << 2, 0)` (R54). -/
def wrwByte (c : Config) : Byte := busByte c.addrWiper0 c.cmdWrite 0#2
/-- The command byte of INC (R54). -/
def incByte (c : Config) : Byte := busByte c.addrWiper0 c.cmdIncrement 0#2
/-- The command byte of DEC (R54). -/
def decByte (c : Config) : Byte := busByte c.addrWiper0 c.cmdDecrement 0#2
/-- The command byte of RDW (R54). -/
def rdwByte (c : Config) : Byte := busByte c.addrWiper0 c.cmdRead 0#2
/-- The command byte of WTC, ENT and DIST (R54). -/
def wtcByte (c : Config) : Byte := busByte c.addrTcon c.cmdWrite 0#2

/-- Where a word stands: the host request port (R92), or the bus, as the bytes of a frame that reaches the device side (R45,
log entry 11). -/
inductive Port where
  | host
  | bus
deriving DecidableEq, Repr

/-- One word at a port, as bytes. A host request is two bytes, the low byte first (log entry 10); a bus frame
is its command byte and, for a Write, its data byte (R33). -/
structure PortWord where
  port  : Port
  bytes : List Byte
deriving DecidableEq, Repr

/-- Why the decoder rejects a word. -/
inductive DecodeError where
  /-- A host request of fewer than two bytes. -/
  | truncatedRequest
  /-- A host request is 11 bits (R61); a bit above them is set. -/
  | requestTooWide
  /-- A bus frame without a command byte. -/
  | emptyFrame
  /-- A Write frame without its data byte (R52). -/
  | missingDataByte
  /-- The `cmd` field is none of the four codes: only in an ill-formed configuration (R51). -/
  | unassignedCode
deriving DecidableEq, Repr

/-- The operation of a request `{op, arg}` (R61). -/
def decodeRequest (op : BitVec 3) (arg : Byte) : Instr :=
  if op = 0#3 then .wrw arg
  else if op = 1#3 then .rdw arg
  else if op = 2#3 then .inc arg
  else if op = 3#3 then .dec arg
  else if op = 4#3 then
    .wtc (arg.getLsbD 3) (arg.getLsbD 2) (arg.getLsbD 1) (arg.extractLsb' 4 4) (arg.getLsbD 0)
  else if op = 5#3 then .ent arg
  else if op = 6#3 then .dist arg
  else .reserved arg

/-- The instruction of a Write command byte and its data byte. -/
def decodeWrite (c : Config) (b data : Byte) : Instr :=
  if b = wrwByte c then .busWrw data
  else if b = wtcByte c then .busWtc data
  else .busWrite (addrField b) (dxField b) data

/-- The instruction of a frame: the `cmd` field gives the kind and so the length (R53); the five bytes of R54
have rows of their own. -/
def decodeFrame (c : Config) (b : Byte) (rest : List Byte) : Except DecodeError Instr :=
  if cmdField b = c.cmdWrite then
    match rest with
    | data :: _ => .ok (decodeWrite c b data)
    | [] => .error .missingDataByte
  else if cmdField b = c.cmdIncrement then
    .ok (if b = incByte c then .busInc else .busIncrement (addrField b) (dxField b))
  else if cmdField b = c.cmdDecrement then
    .ok (if b = decByte c then .busDec else .busDecrement (addrField b) (dxField b))
  else if cmdField b = c.cmdRead then
    .ok (if b = rdwByte c then .busRdw else .busRead (addrField b) (dxField b))
  else .error .unassignedCode

/-- The decoder, total on the bytes at either port. -/
def decode (c : Config) (w : PortWord) : Except DecodeError Instr :=
  match w.port, w.bytes with
  | .host, low :: high :: _ =>
    if high.extractLsb' 3 5 = 0#5 then .ok (decodeRequest (high.extractLsb' 0 3) low)
    else .error .requestTooWide
  | .host, _ => .error .truncatedRequest
  | .bus, b :: rest => decodeFrame c b rest
  | .bus, [] => .error .emptyFrame

/-- The operand byte of WTC (R61): `arg[3] = a`, `arg[2] = w`, `arg[1] = b`. -/
def wtcArg (a w b : Bool) (xh : BitVec 4) (xl : Bool) : Byte :=
  xh ++ BitVec.ofBool a ++ BitVec.ofBool w ++ BitVec.ofBool b ++ BitVec.ofBool xl

/-- A host request as it stands at the port (R61, log entry 10). -/
def requestWord (op : BitVec 3) (arg : Byte) : PortWord :=
  ⟨.host, [arg, op.setWidth 8]⟩

/-- The word of an instruction, from the same encodings (R50, R54, R61). -/
def encode (c : Config) : Instr → PortWord
  | .wrw v => requestWord 0#3 v
  | .rdw x => requestWord 1#3 x
  | .inc x => requestWord 2#3 x
  | .dec x => requestWord 3#3 x
  | .wtc a w b xh xl => requestWord 4#3 (wtcArg a w b xh xl)
  | .ent x => requestWord 5#3 x
  | .dist x => requestWord 6#3 x
  | .reserved x => requestWord 7#3 x
  | .busWrite addr dx data => ⟨.bus, [busByte addr c.cmdWrite dx, data]⟩
  | .busIncrement addr dx => ⟨.bus, [busByte addr c.cmdIncrement dx]⟩
  | .busDecrement addr dx => ⟨.bus, [busByte addr c.cmdDecrement dx]⟩
  | .busRead addr dx => ⟨.bus, [busByte addr c.cmdRead dx]⟩
  | .busWrw data => ⟨.bus, [wrwByte c, data]⟩
  | .busInc => ⟨.bus, [incByte c]⟩
  | .busDec => ⟨.bus, [decByte c]⟩
  | .busRdw => ⟨.bus, [rdwByte c]⟩
  | .busWtc data => ⟨.bus, [wtcByte c, data]⟩

/-- The word of spec/opcode_table.json with `nbits` bits: up to one byte it is a bus command byte (followed by
a data byte of zeros), up to two bytes a host request. -/
def tableWord (nbits w : Nat) : PortWord :=
  ⟨if nbits ≤ 8 then .bus else .host, [BitVec.ofNat 8 w, BitVec.ofNat 8 (w / 256)]⟩

/-- What the decoder reads from a word of the opcode table, in the default build. -/
def decodeTableWord (nbits w : Nat) : Option Instr :=
  if w < 65536 then
    match decode Config.default (tableWord nbits w) with
    | .ok i => some i
    | .error _ => none
  else none

end Sys2Proof
end

