-- ==== Sys2Proof/Machine/State.lean ====
section
/-! DEFINITION. The state of the block (spec/10_state.md R10 to R22), its ports, its configuration, the
reference peer of spec/20_memory.md R44, and the reasons a model run can stop. -/

namespace Sys2Proof.Machine

/-- A terminal-connection state: true means connected (R13). -/
structure TermState where
  a : Bool
  w : Bool
  b : Bool
deriving DecidableEq, Repr

/-- The sequencer step index `sq` (R15), in its numbering 0 to 7. -/
inductive Sq where
  | idle
  | check
  | select
  | b0
  | b1
  | b2
  | b3
  | finish
deriving DecidableEq, Repr

/-- The result of an operation (R18, R62, R160). -/
inductive Status where
  | ok
  | transportFailure
  | rangeViolation
  | integrityViolation
  | alreadyAtBound
  | unsupported
deriving DecidableEq, Repr

/-- The three frame formats (R52). -/
inductive Format where
  | s1
  | w2
  | r4
deriving DecidableEq, Repr

/-- What the transport answers to one primitive: whether it completes (`t_done`), whether it succeeds
(`t_ok`) and the byte it drives (`t_rdata`) (R81, R82, R91). -/
structure Answer where
  done : Bool
  ok   : Bool
  data : Byte
deriving DecidableEq, Repr

/-- A completed transport primitive (R80), in the notation of spec/95_test_vectors.md: `SEL`, `DES`, `W b` and
`R b`, the last two with their `ok` bit. -/
inductive Event where
  | selected
  | deselected
  | wrote (b : Byte) (ok : Bool)
  | got (b : Byte) (ok : Bool)
deriving DecidableEq, Repr

/-- Which transport answers: one under no law (R4), or the reference peer (R44). -/
inductive Link where
  | free
  | reference
deriving DecidableEq, Repr

/-- The device register space as (address, byte) pairs. Canonical form: addresses strictly rising, all below
16 (R30). An unlisted address holds no byte the model knows: it reads as `Config.devInit` (log entry 15). -/
abbrev Memory := List Host.Cell

/-- The reference peer (R44): its sixteen registers and its place inside a bracket. -/
structure Peer where
  dev  : Memory
  psel : Bool
  pcnt : Nat
  pcmd : Byte
  prd  : Nat
deriving DecidableEq, Repr

@[ext]
structure State where
  /-- The parameters of the build; no step changes them (R19). -/
  cfg      : Config
  /-- `W[0]`, the wiper shadow register (R11). -/
  w0       : Byte
  /-- `TC`, the terminal-connection shadow register; holds no value in variant A (R13). -/
  tc       : Option TermState
  /-- `sq` (R15). -/
  sq       : Sq
  /-- `op`, the latched operation (R16). -/
  op       : BitVec 3
  /-- `arg`, the latched operand (R16). -/
  arg      : Byte
  /-- `d`, the data byte to send (R16). -/
  d        : Byte
  /-- `hi`, the first response byte of a read (R16). -/
  hi       : Byte
  /-- `lo`, the second response byte of a read (R16). -/
  lo       : Byte
  /-- `fail`: a byte primitive of the running operation failed (R16). -/
  fail     : Bool
  /-- `sel`: between `Select()` and `Deselect()` (R17). -/
  sel      : Bool
  /-- `status` of the last result (R18). -/
  status   : Status
  /-- `rdata` of the last result (R18). -/
  rdata    : Byte
  /-- `rsp_valid`: the last step produced a result (R92). -/
  rspValid : Bool
  /-- The reset input (R92, R180). -/
  rst      : Bool
  /-- The words waiting at the ports, the next one first (R92, log entry 10). -/
  pending  : List PortWord
  /-- MODEL: the next answers of the transport (log entry 6). -/
  tin      : List Answer
  /-- MODEL: which transport answers (log entry 14). -/
  link     : Link
  /-- The reference peer (R44). -/
  peer     : Peer
  /-- MODEL: the bytes the peer drove in the last frame that reached it from the bus port (log entry 12). -/
  reply    : List Byte
  /-- MODEL: how many answers the transport has given (log entry 6). -/
  tick     : Nat
  /-- MODEL: how many free values `rdata` has taken (log entry 7). -/
  draws    : Nat
  /-- MODEL: the completed transport primitives, the oldest first; nothing reads it (log entry 18). -/
  trace    : List Event
deriving DecidableEq, Repr

/-- The reasons a run stops with a fault. No instruction ends in one. -/
inductive Fault where
  /-- Raised by `State.readTerminals`, `State.dbgTcValid` and `State.dbgTc`: `TC` is read through the diagnostics port
  in variant A, where the register does not exist (R13, "a model error"). Safe: the model gives no value. -/
  | noTerminalRegister
deriving DecidableEq, Repr

/-- The reasons a run is refused. No instruction ends in one. -/
inductive Refusal where
  /-- Raised by `exec` for an instruction that has no meaning yet. Safe: no next state. No arm uses it. -/
  | notModelled (mnemonic : String)
  /-- Raised by `step`: the word at a port decodes to no instruction. Safe: no next state. -/
  | undecodable (why : DecodeError)
  /-- Raised by `State.resetInput`: reset while an operation runs (R181, U18). Safe: no next state. -/
  | resetWhileBusy
  /-- Raised by `State.boot`: the configuration breaks R7 (U19). Safe: no such machine. -/
  | illFormedConfig
  /-- Raised by `Rig.control`: a request to an adapter whose setup failed; it "must not silently proceed" and
  nothing more is said (R142, N26). Safe: no next state. -/
  | adapterFailed
  /-- Raised by `Rig.control`: a control request before setup, a duty broken (R140, "Not modelled"; R183; log entry 23).
  Safe: no next state. -/
  | notSetUp
  /-- Raised by `Rig.setup`: setup a second time, a duty broken (R140, "Not modelled"; R183; log entry 23). Safe: no next
  state. -/
  | setupAgain
deriving DecidableEq, Repr

/-- The reference peer before any primitive: no register listed (R44, log entries 15 and 16). -/
def Peer.initial : Peer := ⟨[], false, 0, 0#8, 0⟩

/-- The block of build `c` right after power-up (R22, R180). `op`, `arg`, `d`, `hi`, `lo`, `status` and `rdata`
have no value in the spec: DESIGN CHOICE, log entry 5. -/
def State.powerOn (c : Config) : State where
  cfg := c
  w0 := c.initValue
  tc := none
  sq := .idle
  op := 0#3
  arg := 0#8
  d := 0#8
  hi := 0#8
  lo := 0#8
  fail := false
  sel := false
  status := .ok
  rdata := 0#8
  rspValid := false
  rst := false
  pending := []
  tin := []
  link := .free
  peer := Peer.initial
  reply := []
  tick := 0
  draws := 0
  trace := []

/-- The default build right after reset (R22, log entry 1). -/
def State.reset : State := State.powerOn Config.default

end Sys2Proof.Machine
end

