-- ==== Sys2Proof/Machine/Flags.lean ====
section
/-! DEFINITION. The block has no condition codes and no flags (spec/10_state.md R18). In their place stands the
response: how an operation's result is reported (R62, R89, R160, R168). -/

namespace Sys2Proof.Machine

/-- The number of a status (R62). 110 and 111 are never produced. -/
def Status.code : Status → BitVec 3
  | .ok => 0b000#3
  | .transportFailure => 0b001#3
  | .rangeViolation => 0b010#3
  | .integrityViolation => 0b011#3
  | .alreadyAtBound => 0b100#3
  | .unsupported => 0b101#3

/-- The response with status `st`; `rdata` is unspecified, so it takes a free value (R62, U6, log entry 7). -/
def State.respond (st : Status) (s : State) : State :=
  { s with status := st, rdata := Config.freeRdata s.draws, draws := s.draws + 1, rspValid := true }

/-- The response OK with the value `v` (R62, R110). -/
def State.respondValue (v : Byte) (s : State) : State :=
  { s with status := .ok, rdata := v, rspValid := true }

/-- `raise <Kind>` (00_scope.md section 7, R168): the operation's result is the error; no register is written. Every
error of every operation is raised here. -/
def State.raise (kind : Status) (s : State) : State :=
  s.respond kind

/-- What follows a result, OK or error (R168, R169): the block is idle and accepts the next request. -/
def State.release (s : State) : State :=
  { s with sq := .idle }

end Sys2Proof.Machine
end

