-- ==== Sys2Proof/Machine/Operands.lean ====
section
/-! DEFINITION. The operands the operations assemble (spec/30_encoding.md R55 to R58) and the numbers the spec
gives its names (R15, R62, R91). -/

namespace Sys2Proof.Machine

/-- The data byte of WRW: `min(v, 128)` (R55). -/
def saturate (v : Byte) : Byte :=
  if v ≤ wiperMax then v else wiperMax

/-- `tcon_byte(a, w, b)`: all bits set, then the bit of each disconnected terminal cleared (R14). -/
def tconByte (t : TermState) : Byte :=
  tcAll &&& ~~~((if t.a then 0#8 else tcMaskA) ||| (if t.w then 0#8 else tcMaskW) |||
    (if t.b then 0#8 else tcMaskB))

/-- The terminals a WTC operand byte asks for (R61). -/
def argTerminals (arg : Byte) : TermState :=
  ⟨arg.getLsbD 3, arg.getLsbD 2, arg.getLsbD 1⟩

/-- Every terminal connected: what ENT asks for (R131). -/
def allConnected : TermState := ⟨true, true, true⟩

/-- Every terminal disconnected: what DIST asks for (R132). -/
def allDisconnected : TermState := ⟨false, false, false⟩

/-- The number of a sequencer step (R15). -/
def Sq.code : Sq → BitVec 3
  | .idle => 0#3
  | .check => 1#3
  | .select => 2#3
  | .b0 => 3#3
  | .b1 => 4#3
  | .b2 => 5#3
  | .b3 => 6#3
  | .finish => 7#3

end Sys2Proof.Machine
end

