-- ==== Sys2Proof/Machine/Ops.lean ====
section
/-! DEFINITION. The shared operations: the device register space, the reference peer, the transport boundary and
the sequencer (spec/20_memory.md R30, R44 to R47; spec/41_sequencer.md R80 to R90). -/

namespace Sys2Proof.Machine

/-! ### The device register space -/

/-- The byte listed at an address. -/
def Memory.read : Memory → Nat → Option Byte
  | [], _ => none
  | (k, v) :: rest, a => if a = k then some v else Memory.read rest a

/-- `m` with byte `v` at address `a`, in canonical form. -/
def Memory.write : Memory → Nat → Byte → Memory
  | [], a, v => [(a, v)]
  | (k, u) :: rest, a, v =>
    if a < k then (a, v) :: (k, u) :: rest
    else if a = k then (k, v) :: rest
    else (k, u) :: Memory.write rest a v

/-- The canonical form: addresses strictly rising, all in the 4-bit register space (R30). -/
abbrev Memory.wf (m : Memory) : Prop :=
  m.Pairwise (fun x y => x.1 < y.1) ∧ ∀ cell ∈ m, cell.1 < 16

/-! ### The reference peer -/

/-- The content of a register of the peer; unspecified before it is written (R44). -/
def Peer.get (p : Peer) (a : RegAddr) : Byte :=
  (Memory.read p.dev a.toNat).getD (Config.devInit a)

/-- The peer with register `a` holding `v`. -/
def Peer.put (p : Peer) (a : RegAddr) (v : Byte) : Peer :=
  { p with dev := Memory.write p.dev a.toNat v }

/-- `Select()` at the peer (R44). -/
def Peer.select (p : Peer) : Peer :=
  { p with psel := true, pcnt := 0, prd := 0 }

/-- `Deselect()` at the peer (R44). -/
def Peer.deselect (p : Peer) : Peer :=
  { p with psel := false }

/-- The device's side of a command byte: a step inside its own bounds, or nothing yet (R45). -/
def Peer.command (c : Config) (b : Byte) (p : Peer) : Peer :=
  if cmdField b = c.cmdIncrement then
    if p.get (addrField b) < wiperMax then p.put (addrField b) (p.get (addrField b) + 1#8) else p
  else if cmdField b = c.cmdDecrement then
    if wiperMin < p.get (addrField b) then p.put (addrField b) (p.get (addrField b) - 1#8) else p
  else p

/-- `WriteByte(b)` at the peer: the command byte (R45), the data byte (R46), or a byte that is ignored (log
entry 17). -/
def Peer.write (c : Config) (b : Byte) (p : Peer) : Peer :=
  if p.pcnt = 0 then { Peer.command c b p with pcmd := b, pcnt := 1 }
  else if p.pcnt = 1 then
    { (if cmdField p.pcmd = c.cmdWrite then p.put (addrField p.pcmd) b else p) with pcnt := 2 }
  else p

/-- The byte the peer returns to `ReadByte()` (R47). -/
def Peer.readByte (c : Config) (p : Peer) : Byte :=
  if cmdField p.pcmd = c.cmdRead ∧ 2 ≤ p.pcnt then
    if p.prd = 0 then 0x00#8
    else if p.prd = 1 then p.get (addrField p.pcmd)
    else 0xFF#8
  else 0xFF#8

/-- The peer after `ReadByte()` (R47). -/
def Peer.afterRead (c : Config) (p : Peer) : Peer :=
  if cmdField p.pcmd = c.cmdRead ∧ 2 ≤ p.pcnt ∧ p.prd < 2 then { p with prd := p.prd + 1 } else p

/-! ### The transport boundary -/

/-- The four primitives (R80). -/
inductive Prim where
  | select
  | deselect
  | writeByte (b : Byte)
  | readByte
deriving DecidableEq, Repr

/-- The answer the transport will give to the `k`-th primitive from here: the script `tin` first; beyond it
the reference peer completes and succeeds (R44), and a transport under no law does what it likes (R4). -/
def State.answerAt (s : State) (k : Nat) : Answer :=
  match s.tin[k]? with
  | some a => a
  | none =>
    match s.link with
    | .reference => ⟨true, true, 0#8⟩
    | .free => ⟨Config.freeDone (s.tick + k), Config.freeOk (s.tick + k), Config.freeByte (s.tick + k)⟩

/-- One answer has been given. -/
def State.consume (s : State) : State :=
  { s with tin := s.tin.tail, tick := s.tick + 1 }

/-- A primitive has completed (log entry 18). -/
def State.log (e : Event) (s : State) : State :=
  { s with trace := s.trace ++ [e] }

/-- The peer, if it is what answers, takes part in a primitive. -/
def State.onPeer (f : Peer → Peer) (s : State) : State :=
  match s.link with
  | .free => s
  | .reference => { s with peer := f s.peer }

/-- The byte `ReadByte()` drives; meaningful only when it succeeds (R80, R81). -/
def State.received (s : State) : Byte :=
  match s.link, (s.answerAt 0).ok with
  | .reference, true => s.peer.readByte s.cfg
  | _, _ => (s.answerAt 0).data

/-- `Select()` completed (R80). -/
def State.opened (s : State) : State :=
  ({ s.consume with sel := true }.onPeer Peer.select).log .selected

/-- `Deselect()` completed (R80). -/
def State.closed (s : State) : State :=
  ({ s.consume with sel := false }.onPeer Peer.deselect).log .deselected

/-- `WriteByte(b)` completed with the answer's `ok` bit (R80, R81); when it failed the peer is as if it had not happened
(R44). -/
def State.sent (b : Byte) (s : State) : State :=
  (if (s.answerAt 0).ok then s.consume.onPeer (Peer.write s.cfg b) else s.consume).log
    (.wrote b (s.answerAt 0).ok)

/-- `ReadByte()` completed with the answer's `ok` bit (R80, R81); when it failed the peer is as if it had not happened
(R44). -/
def State.gotten (s : State) : State :=
  (if (s.answerAt 0).ok then s.consume.onPeer (Peer.afterRead s.cfg) else s.consume).log
    (.got s.received (s.answerAt 0).ok)

/-- The sequencer moves to step `q`: `sq <- q` (R15). -/
def State.goto (q : Sq) (s : State) : State := { s with sq := q }

/-- The data byte to send: `d <- v` (R16). -/
def State.setD (v : Byte) (s : State) : State := { s with d := v }

/-- The first response byte: `hi <- v` (R16). -/
def State.setHi (v : Byte) (s : State) : State := { s with hi := v }

/-- The second response byte: `lo <- v` (R16). -/
def State.setLo (v : Byte) (s : State) : State := { s with lo := v }

/-- `W[0] <- v` (R11). -/
def State.setW0 (v : Byte) (s : State) : State := { s with w0 := v }

/-- `TC <- t` (R13). -/
def State.setTc (t : TermState) (s : State) : State := { s with tc := some t }

/-- A byte primitive failed (R85): `fail <- 1`, `sq <- 7`, the rest of the frame skipped. -/
def State.abort (s : State) : State := { s with fail := true, sq := .finish }

/-- What a primitive comes to: not completed yet (R82), or completed with its `ok` bit and the byte read. -/
inductive Reply where
  | waiting (s : State)
  | done (s : State) (ok : Bool) (b : Byte)
deriving DecidableEq, Repr

/-- One transport primitive (R80): issued once, answered by the transport (R82, R88). `Select` and `Deselect` report
no failure (R81). -/
def primitive (p : Prim) (s : State) : Reply :=
  if (s.answerAt 0).done then
    match p with
    | .select => .done s.opened true 0#8
    | .deselect => .done s.closed true 0#8
    | .writeByte b => .done (s.sent b) (s.answerAt 0).ok 0#8
    | .readByte => .done s.gotten (s.answerAt 0).ok s.received
  else .waiting s.consume

/-! ### The sequencer -/

/-- The outcome of CHECK (R83): a rejection, or the data byte of an operation that has one. -/
inductive Check where
  | reject (st : Status)
  | proceed (d : Option Byte)
deriving DecidableEq, Repr

/-- What R90 and the operation files give for one operation: its CHECK on the latched operand, its command byte, its
frame format and its commit. -/
structure MicroProgram where
  check   : Config → Byte → Check
  cmd     : Config → Byte
  format  : Format
  commit  : State → State

/-- The byte primitive of a frame at a step, if the frame has one there (R52, R90). -/
def bytePrim (m : MicroProgram) (s : State) : Sq → Option Prim
  | .b0 => some (.writeByte (m.cmd s.cfg))
  | .b1 =>
    match m.format with
    | .s1 => none
    | .w2 => some (.writeByte s.d)
    | .r4 => some (.writeByte s.cfg.dummyByte)
  | .b2 => if m.format = .r4 then some .readByte else none
  | .b3 => if m.format = .r4 then some .readByte else none
  | _ => none

/-- The primitive the sequencer issues at its current step (R83, R90). -/
def currentPrim (m : MicroProgram) (s : State) : Option Prim :=
  match s.sq with
  | .idle => none
  | .check => none
  | .select => some .select
  | .finish => some .deselect
  | q => bytePrim m s q

/-- The step after a step that succeeded (R84). -/
def nextSq (f : Format) : Sq → Sq
  | .idle => .check
  | .check => .select
  | .select => .b0
  | .b0 => if f = .s1 then .finish else .b1
  | .b1 => if f = .r4 then .b2 else .finish
  | .b2 => .b3
  | .b3 => .finish
  | .finish => .idle

/-- The commit (R89): a failed frame is a TransportFailure, else the operation decides; the block is then idle. -/
def commit (m : MicroProgram) (s : State) : State :=
  (if s.fail then s.raise .transportFailure else m.commit s).release

/-- The response latches of a read take the bytes as they come (R16, R43, log entry 19). -/
def latchByte (q : Sq) (b : Byte) (s : State) : State :=
  match q with
  | .b2 => s.setHi b
  | .b3 => s.setLo b
  | _ => s

/-- What a completed primitive leads to (R84, R85, R89): the commit after `Deselect`; the next step; or, when a
byte primitive failed, straight to `Deselect`. -/
def afterPrim (m : MicroProgram) (q : Sq) (ok : Bool) (b : Byte) (s : State) : State :=
  if q = .finish then commit m s
  else if ok then (latchByte q b s).goto (nextSq m.format q)
  else (latchByte q b s).abort

/-- CHECK (R83): no bus traffic; a rejection writes the result and ends the operation. -/
def runCheck (m : MicroProgram) (s : State) : State :=
  match m.check s.cfg s.arg with
  | .reject st => (s.raise st).release
  | .proceed none => s.goto .select
  | .proceed (some d) => (s.setD d).goto .select

/-- What one sequencer step comes to. -/
inductive Advance where
  | moved (s : State)
  | halted (s : State)
deriving DecidableEq, Repr

/-- One step of the sequencer (R83). A step the frame does not have is passed over (R15, R90). -/
def advance (m : MicroProgram) (s : State) : Advance :=
  match s.sq with
  | .idle => .halted s
  | .check => .moved (runCheck m s)
  | q =>
    match currentPrim m s with
    | none => .moved (s.goto (nextSq m.format q))
    | some p =>
      match primitive p s with
      | .waiting t => .halted t
      | .done t ok b => .moved (afterPrim m q ok b t)

/-- At most `n` sequencer steps, until the block is idle or the transport has not completed a primitive. -/
def runSteps (m : MicroProgram) : Nat → State → State
  | 0, s => s
  | n + 1, s =>
    match advance m s with
    | .halted t => t
    | .moved t => runSteps m n t

/-- The number of steps of the longest operation: CHECK, Select, four bytes, Deselect (R15). -/
abbrev maxSteps : Nat := 7

/-- Accept a host request (R83): latch it, clear `fail`, go to CHECK. -/
def State.accept (op : BitVec 3) (arg : Byte) (s : State) : State :=
  { s with op := op, arg := arg, fail := false, rspValid := false, sq := .check }

/-- A whole operation (R9, R83), as far as the transport completes its primitives. A request presented while the
block is busy is not accepted and has no effect (R87). -/
def runRequest (m : MicroProgram) (op : BitVec 3) (arg : Byte) (s : State) :
    Host.Outcome State Fault Refusal :=
  if s.sq = .idle then .next (runSteps m maxSteps (s.accept op arg)) else .next s

/-! ### The store and load primitives -/

/-- `MemWrite(a, 1, d)` (R42), with the CHECK that gives `d` and the commit of the operation that uses it. -/
def memWrite (a : Config → RegAddr) (check : Config → Byte → Check) (commit : State → State) : MicroProgram where
  check := check
  cmd := fun c => busByte (a c) c.cmdWrite 0#2
  format := .w2
  commit := commit

/-- `MemRead(a, 2)` (R43), its two bytes in `hi` and `lo`, with the commit of the operation that uses it. -/
def memRead (a : Config → RegAddr) (commit : State → State) : MicroProgram where
  check := fun _ _ => .proceed none
  cmd := fun c => busByte (a c) c.cmdRead 0#2
  format := .r4
  commit := commit

/-! ### Whole frames at the device side -/

/-- A Write frame at the peer (R45, R46). -/
def Peer.writeFrame (c : Config) (cmd data : Byte) (p : Peer) : Peer :=
  ((p.select.write c cmd).write c data).deselect

/-- A frame of one command byte at the peer (R45). -/
def Peer.stepFrame (c : Config) (cmd : Byte) (p : Peer) : Peer :=
  (p.select.write c cmd).deselect

/-- The peer in a Read frame, its command byte and the dummy byte written (R45, R46). -/
def Peer.asked (c : Config) (cmd : Byte) (p : Peer) : Peer :=
  (p.select.write c cmd).write c c.dummyByte

/-- A Read frame at the peer (R45 to R47). -/
def Peer.readFrame (c : Config) (cmd : Byte) (p : Peer) : Peer :=
  (((p.asked c cmd).afterRead c).afterRead c).deselect

/-- The two bytes the peer drives in a Read frame, the high one first (R33, R47). -/
def Peer.response (c : Config) (cmd : Byte) (p : Peer) : List Byte :=
  [(p.asked c cmd).readByte c, ((p.asked c cmd).afterRead c).readByte c]

/-- A frame that reaches the device side while the bus is free (log entry 11): the peer takes it, and the block has no part in
it. While an operation runs the bus is that operation's (R185), and the frame has no effect. -/
def runFrame (f : Peer → Peer) (reply : List Byte) (s : State) : Host.Outcome State Fault Refusal :=
  if s.sq = .idle then .next { s with rspValid := false, reply := reply, peer := f s.peer } else .next s

end Sys2Proof.Machine
end

