-- ==== Sys2Proof/Machine/BusFrame.lean ====
section
/-! DEFINITION. The bus command bytes (spec/30_encoding.md R50 to R54), each as its frame reaching the device side, which is the
reference peer (spec/20_memory.md R44 to R47; log entries 11 and 12). The block's own sequencer emits none of these frames by
itself: what it puts on the bus is what its operations send (R54, R63). -/

namespace Sys2Proof.Machine

/-- BUS.WRITE: a Write frame at any of the peer's sixteen registers, with any `dx` (R45, R46), in either variant (log entry
11). -/
def execBusWrite (addr : RegAddr) (dx : BitVec 2) (data : Byte) (s : State) :
    Host.Outcome State Fault Refusal :=
  runFrame (Peer.writeFrame s.cfg (busByte addr s.cfg.cmdWrite dx) data) [] s

/-- BUS.INCREMENT: an Increment frame at any of the peer's sixteen registers (R45, log entry 11). -/
def execBusIncrement (addr : RegAddr) (dx : BitVec 2) (s : State) : Host.Outcome State Fault Refusal :=
  runFrame (Peer.stepFrame s.cfg (busByte addr s.cfg.cmdIncrement dx)) [] s

/-- BUS.DECREMENT: a Decrement frame at any of the peer's sixteen registers (R45, log entry 11). -/
def execBusDecrement (addr : RegAddr) (dx : BitVec 2) (s : State) : Host.Outcome State Fault Refusal :=
  runFrame (Peer.stepFrame s.cfg (busByte addr s.cfg.cmdDecrement dx)) [] s

/-- BUS.READ: a Read frame at any of the peer's sixteen registers; its two bytes stand in `reply` (R47, log entries 11 and
12). -/
def execBusRead (addr : RegAddr) (dx : BitVec 2) (s : State) : Host.Outcome State Fault Refusal :=
  runFrame (Peer.readFrame s.cfg (busByte addr s.cfg.cmdRead dx))
    (s.peer.response s.cfg (busByte addr s.cfg.cmdRead dx)) s

/-- BUS.WRW: the frame of WRW (R54, R100) at the device side. -/
def execBusWrw (data : Byte) (s : State) : Host.Outcome State Fault Refusal :=
  runFrame (Peer.writeFrame s.cfg (wrwByte s.cfg) data) [] s

/-- BUS.INC: the frame of INC (R54, R120) at the device side. -/
def execBusInc (s : State) : Host.Outcome State Fault Refusal :=
  runFrame (Peer.stepFrame s.cfg (incByte s.cfg)) [] s

/-- BUS.DEC: the frame of DEC (R54, R121) at the device side. -/
def execBusDec (s : State) : Host.Outcome State Fault Refusal :=
  runFrame (Peer.stepFrame s.cfg (decByte s.cfg)) [] s

/-- BUS.RDW: the frame of RDW (R54, R110) at the device side; its two bytes stand in `reply` (log entry 12). -/
def execBusRdw (s : State) : Host.Outcome State Fault Refusal :=
  runFrame (Peer.readFrame s.cfg (rdwByte s.cfg)) (s.peer.response s.cfg (rdwByte s.cfg)) s

/-- BUS.WTC: the frame of WTC, ENT and DIST (R54, R130) at the device side. The model's choice (log entry 11): the frame acts in
variant A too, where R5 gives the device no terminal control, because the peer of R44 has its register in every build. -/
def execBusWtc (data : Byte) (s : State) : Host.Outcome State Fault Refusal :=
  runFrame (Peer.writeFrame s.cfg (wtcByte s.cfg) data) [] s

end Sys2Proof.Machine
end

