-- ==== Sys2Proof/Machine/Terminal.lean ====
section
/-! DEFINITION. The terminal operations WTC, ENT and DIST and the reserved request (spec/45_terminal_connection.md;
spec/30_encoding.md R60, R64; micro-programs of R90). -/

namespace Sys2Proof.Machine

/-- CHECK of a terminal operation (R130): Unsupported in variant A, else the data byte of the terminals (R56). -/
def terminalCheck (c : Config) (t : TermState) : Check :=
  match c.variant with
  | .A => .reject .unsupported
  | .B => .proceed (some (tconByte t))

/-- Commit of a terminal operation (R130): `TC <- (a, w, b)`. -/
def terminalCommit (t : TermState) (s : State) : State :=
  (s.setTc t).respond .ok

/-- WTC is `MemWrite` at TerminalControl (R42, R130). -/
def wtcProgram : MicroProgram :=
  memWrite Config.addrTcon (fun c arg => terminalCheck c (argTerminals arg)) (fun s => terminalCommit (argTerminals s.arg) s)

/-- WTC a, w, b (R130); the other operand bits are ignored (R61). -/
def execWtc (a w b : Bool) (xh : BitVec 4) (xl : Bool) (s : State) : Host.Outcome State Fault Refusal :=
  runRequest wtcProgram 4#3 (wtcArg a w b xh xl) s

/-- ENT is `MemWrite` at TerminalControl (R42, R131). -/
def entProgram : MicroProgram :=
  memWrite Config.addrTcon (fun c _ => terminalCheck c allConnected) (terminalCommit allConnected)

/-- ENT: WTC with every terminal connected (R60, R131). -/
def execEnt (x : Byte) (s : State) : Host.Outcome State Fault Refusal :=
  runRequest entProgram 5#3 x s

/-- DIST is `MemWrite` at TerminalControl (R42, R132). -/
def distProgram : MicroProgram :=
  memWrite Config.addrTcon (fun c _ => terminalCheck c allDisconnected) (terminalCommit allDisconnected)

/-- DIST: WTC with every terminal disconnected (R60, R132). -/
def execDist (x : Byte) (s : State) : Host.Outcome State Fault Refusal :=
  runRequest distProgram 6#3 x s

/-- The reserved opcode is rejected at CHECK (R64, R90); it has no frame, so its frame and commit are never reached (log
entry 22). -/
def reservedProgram : MicroProgram :=
  ⟨fun _ _ => .reject .unsupported, wrwByte, .s1, State.respond .unsupported⟩

/-- The reserved request, opcode 111 (R64): status Unsupported, no bus traffic. -/
def execReserved (x : Byte) (s : State) : Host.Outcome State Fault Refusal :=
  runRequest reservedProgram 7#3 x s

end Sys2Proof.Machine
end

