-- ==== Sys2Proof/Machine/Wiper.lean ====
section
/-! DEFINITION. The wiper operations WRW, RDW, INC and DEC (spec/42_wiper_write.md, 43_wiper_read.md,
44_wiper_step.md; micro-programs of R90). -/

namespace Sys2Proof.Machine

/-- CHECK of WRW (R100): the strict variant rejects an operand above 128 with no bus traffic; otherwise the data
byte is `min(v, 128)`. -/
def wrwCheck (c : Config) (v : Byte) : Check :=
  if c.variant = .B ∧ wiperMax < v then .reject .rangeViolation else .proceed (some (saturate v))

/-- Commit of WRW (R100): `W[0] <- d`. -/
def wrwCommit (s : State) : State :=
  (s.setW0 s.d).respond .ok

/-- WRW is `MemWrite` at Wiper0 (R42, R100). -/
def wrwProgram : MicroProgram := memWrite Config.addrWiper0 wrwCheck wrwCommit

/-- WRW v (R100). -/
def execWrw (v : Byte) (s : State) : Host.Outcome State Fault Refusal :=
  runRequest wrwProgram 0#3 v s

/-- Commit of RDW (R110): the low byte is the value if it lies in [0, 128]; the high byte is not looked at (R58);
`W[0]` is not written. -/
def rdwCommit (s : State) : State :=
  if wiperMax < s.lo then s.raise .integrityViolation else s.respondValue s.lo

/-- RDW is `MemRead` at Wiper0 (R43, R110). -/
def rdwProgram : MicroProgram := memRead Config.addrWiper0 rdwCommit

/-- RDW (R110); the operand byte is ignored. -/
def execRdw (x : Byte) (s : State) : Host.Outcome State Fault Refusal :=
  runRequest rdwProgram 1#3 x s

/-- Commit of INC (R120): at 128 the step is reported as AlreadyAtBound, the frame having been sent all the same. -/
def incCommit (s : State) : State :=
  if s.w0 = wiperMax then s.raise .alreadyAtBound else (s.setW0 (s.w0 + 1#8)).respond .ok

/-- INC is one command byte (R52, R120). -/
def incProgram : MicroProgram := ⟨fun _ _ => .proceed none, incByte, .s1, incCommit⟩

/-- INC (R120); the operand byte is ignored. -/
def execInc (x : Byte) (s : State) : Host.Outcome State Fault Refusal :=
  runRequest incProgram 2#3 x s

/-- Commit of DEC (R121): at 0 the step is reported as AlreadyAtBound, the frame having been sent all the same. -/
def decCommit (s : State) : State :=
  if s.w0 = wiperMin then s.raise .alreadyAtBound else (s.setW0 (s.w0 - 1#8)).respond .ok

/-- DEC is one command byte (R52, R121). -/
def decProgram : MicroProgram := ⟨fun _ _ => .proceed none, decByte, .s1, decCommit⟩

/-- DEC (R121); the operand byte is ignored. -/
def execDec (x : Byte) (s : State) : Host.Outcome State Fault Refusal :=
  runRequest decProgram 3#3 x s

end Sys2Proof.Machine
end

