-- ==== Sys2Proof/Machine/Dispatch.lean ====
section
/-! DEFINITION. Which meaning each instruction has: one arm per constructor. -/

namespace Sys2Proof.Machine

def exec (i : Instr) (s : State) : Host.Outcome State Fault Refusal :=
  match i with
  | .wrw v => Sys2Proof.Machine.execWrw v s
  | .rdw x => Sys2Proof.Machine.execRdw x s
  | .inc x => Sys2Proof.Machine.execInc x s
  | .dec x => Sys2Proof.Machine.execDec x s
  | .wtc a w b xh xl => Sys2Proof.Machine.execWtc a w b xh xl s
  | .ent x => Sys2Proof.Machine.execEnt x s
  | .dist x => Sys2Proof.Machine.execDist x s
  | .reserved x => Sys2Proof.Machine.execReserved x s
  | .busWrite addr dx data => Sys2Proof.Machine.execBusWrite addr dx data s
  | .busIncrement addr dx => Sys2Proof.Machine.execBusIncrement addr dx s
  | .busDecrement addr dx => Sys2Proof.Machine.execBusDecrement addr dx s
  | .busRead addr dx => Sys2Proof.Machine.execBusRead addr dx s
  | .busWrw data => Sys2Proof.Machine.execBusWrw data s
  | .busInc => Sys2Proof.Machine.execBusInc s
  | .busDec => Sys2Proof.Machine.execBusDec s
  | .busRdw => Sys2Proof.Machine.execBusRdw s
  | .busWtc data => Sys2Proof.Machine.execBusWtc data s

end Sys2Proof.Machine
end

