-- ==== Sys2Proof/Machine/Sequencer.lean ====
section
/-! DEFINITION. Which micro-program a busy block is running (spec/41_sequencer.md R90), how it goes on after a
primitive that had not completed (R82), and the reset input (spec/70_reset_and_hazards.md R180, R181). -/

namespace Sys2Proof.Machine

/-- The micro-program of a latched operation (R61, R90). -/
def requestProgram (op : BitVec 3) : MicroProgram :=
  if op = 0#3 then wrwProgram
  else if op = 1#3 then rdwProgram
  else if op = 2#3 then incProgram
  else if op = 3#3 then decProgram
  else if op = 4#3 then wtcProgram
  else if op = 5#3 then entProgram
  else if op = 6#3 then distProgram
  else reservedProgram

/-- The micro-program the block is running: that of the latched operation (R16). -/
def State.program (s : State) : MicroProgram :=
  requestProgram s.op

/-- A busy block goes on from where it stands (R82, R84; log entry 8). -/
def State.resume (s : State) : State :=
  runSteps s.program maxSteps s

/-- The state after the reset input (R22, R180): the block is as at power-up; what stands outside it (waiting
words, transport, peer) and the model's own counters stay (log entry 21); no primitive is issued. -/
def State.afterReset (s : State) : State :=
  { State.powerOn s.cfg with
    pending := s.pending, tin := s.tin, link := s.link, peer := s.peer, reply := s.reply, tick := s.tick, draws := s.draws,
    trace := s.trace }

/-- The reset input asserted (R180); while an operation runs it has no meaning (R181). -/
def State.resetInput (s : State) : Host.Outcome State Fault Refusal :=
  if s.sq = .idle then .next s.afterReset else .refused .resetWhileBusy

/-- Building the block (R7, R22): an ill-formed configuration is refused (U19). -/
def State.boot (c : Config) : Host.Outcome State Fault Refusal :=
  if c.wf then .next (State.powerOn c) else .refused .illFormedConfig

/-- An idle block with no request waits (R180); the response pulse falls (R92). -/
def State.wait (s : State) : State :=
  { s with rspValid := false }

end Sys2Proof.Machine
end

