-- ==== Sys2Proof/Machine/Fetch.lean ====
section
/-! DEFINITION. The next word at the ports. The block fetches no instructions (spec/20_memory.md R29); a request
arrives on the host port when the block is idle (spec/41_sequencer.md R87). -/

namespace Sys2Proof.Machine

/-- The instruction the waiting word stands for. -/
def State.fetch (s : State) (w : PortWord) : Except DecodeError Instr :=
  decode s.cfg w

/-- The host's word has been taken. -/
def State.take (rest : List PortWord) (s : State) : State :=
  { s with pending := rest }

/-- `s` idle, out of reset, with word `w` waiting first. -/
def State.present (w : PortWord) (s : State) : State :=
  { s with pending := w :: s.pending, rst := false, sq := .idle, sel := false }

end Sys2Proof.Machine
end

