-- ==== Sys2Proof/Machine/Ports.lean ====
section
/-! DEFINITION. The ports of the block as signals (spec/41_sequencer.md R91, R92) and the diagnostics port
(spec/10_state.md R20, spec/60_exceptions.md R172). -/

namespace Sys2Proof.Machine

/-- `req_ready` (R92). -/
def State.reqReady (s : State) : Bool := decide (s.sq = .idle)

/-- The request `{op, arg}` the host presents (R61, R92): the next word, when it is an 11-bit word of the host port. A frame
on the bus is no request. -/
def State.request (s : State) : Option (BitVec 3 × Byte) :=
  match s.pending with
  | ⟨.host, low :: high :: _⟩ :: _ =>
    if high.extractLsb' 3 5 = 0#5 then some (high.extractLsb' 0 3, low) else none
  | _ => none

/-- `req_valid` (R92). -/
def State.reqValid (s : State) : Bool := s.request.isSome

/-- `req_op` (R92), meaningful with `req_valid`. -/
def State.reqOp (s : State) : Option (BitVec 3) := s.request.map Prod.fst

/-- `req_arg` (R92), meaningful with `req_valid`. -/
def State.reqArg (s : State) : Option Byte := s.request.map Prod.snd

/-- `rsp_status` (R92). -/
def State.rspStatus (s : State) : BitVec 3 := s.status.code

/-- `rsp_rdata` (R92). -/
def State.rspRdata (s : State) : Byte := s.rdata

/-- The primitive the block is asking the transport for (R91). -/
def State.asking (s : State) : Option Prim := currentPrim s.program s

/-- `t_req` (R91). -/
def State.tReq (s : State) : Bool := s.asking.isSome

/-- `t_kind` (R91): 00 Select, 01 Deselect, 10 WriteByte, 11 ReadByte. -/
def Prim.kind : Prim → BitVec 2
  | .select => 0b00#2
  | .deselect => 0b01#2
  | .writeByte _ => 0b10#2
  | .readByte => 0b11#2

/-- `t_wdata` (R91), meaningful for WriteByte. -/
def Prim.wdata : Prim → Option Byte
  | .writeByte b => some b
  | .select => none
  | .deselect => none
  | .readByte => none

/-- Continue with an answer, unless it is a stop. -/
def andThen {α β : Type} (o : Host.Outcome α Fault Refusal) (f : α → Host.Outcome β Fault Refusal) :
    Host.Outcome β Fault Refusal :=
  match o with
  | .next a => f a
  | .fault r => .fault r
  | .refused r => .refused r

/-- `dbg_init` (R92). -/
def State.dbgInit (s : State) : Byte := s.cfg.initValue

/-- `dbg_w0` (R92). -/
def State.dbgW0 (s : State) : Byte := s.w0

/-- `TC` through the diagnostics port: the register does not exist in variant A (R13); without a value it shows
as not valid (R20, U8). -/
def State.readTerminals (s : State) : Host.Outcome (Option TermState) Fault Refusal :=
  match s.cfg.variant with
  | .A => .fault .noTerminalRegister
  | .B => .next s.tc

/-- `dbg_tc_valid`, variant B (R92); reading it in variant A is a read of `TC` (R13). -/
def State.dbgTcValid (s : State) : Host.Outcome Bool Fault Refusal :=
  andThen s.readTerminals fun t => .next t.isSome

/-- `dbg_tc`, variant B, when it holds a value (R92); reading it in variant A is a read of `TC` (R13). -/
def State.dbgTc (s : State) : Host.Outcome (Option Byte) Fault Refusal :=
  andThen s.readTerminals fun t => .next (t.map tconByte)

end Sys2Proof.Machine
end

