-- ==== Sys2Proof/Machine/Step.lean ====
section
/-! DEFINITION. One step of the machine: a whole operation where the transport completes its primitives
(spec/00_scope.md R9; log entries 8, 9 and 10). -/

namespace Sys2Proof.Machine

/-- One step. The reset input comes first (R180); a busy block goes on (R82, R87); an idle one takes the waiting
word and runs its instruction (R83), or waits (R180). -/
def step (s : State) : Host.Outcome State Fault Refusal :=
  if s.rst then s.resetInput
  else if s.sq = .idle then
    match s.pending with
    | [] => .next s.wait
    | w :: rest =>
      match s.fetch w with
      | .ok i => exec i (s.take rest)
      | .error e => .refused (.undecodable e)
  else .next s.resume

/-- `s` with a word of the opcode table waiting where `step` takes its next instruction (log entry 10). -/
def State.withFetchWord (s : State) (nbits w : Nat) : State :=
  s.present (tableWord nbits w)

end Sys2Proof.Machine
end

