-- ==== Sys2Proof/Machine/FanAdapter.lean ====
section
/-! DEFINITION. The documented host, the Fan Adapter (spec/47_host_fan_adapter.md). It is software above the
block and no part of it (00_scope.md R3): its state is a structure of its own, and `step` does not use it (log entry 20). A call
of the framework runs until the block keeps it waiting; `Rig.step` takes it up again, so the adapter waits for each result,
however long the transport takes (R82, R140). -/

namespace Sys2Proof.Machine

/-- What the adapter is doing: nothing, or waiting for the result of one operation of the block (R140). -/
inductive Task where
  | ready
  /-- Setup waits for WRW 0 (R143). -/
  | setupWiper
  /-- Setup waits for DIST; `wiper` is what came of WRW 0 (R143). -/
  | setupTerminals (wiper : Status)
  /-- A control request waits for ENT or DIST; its speed part is still to come (R144, R145). -/
  | switching (v : Bool) (speed : Option Int)
  /-- A control request waits for WRW (R146). -/
  | speeding (level : Int)
deriving DecidableEq, Repr

/-- The adapter's state (R141, R142, R148). -/
structure Fan where
  on          : Bool
  speedLevel  : Int
  /-- The number of non-zero speed steps, fixed at creation (R141). -/
  speedCount  : Int
  /-- The last wiper value written successfully (R141). -/
  cachedWiper : Option Byte
  /-- The standing failed flag (R142). -/
  failed      : Bool
  /-- What has been published, the oldest first (R148). -/
  published   : List (Bool × Int)
  /-- Setup has been called (R140, R150). -/
  setUp       : Bool
  task        : Task
deriving DecidableEq, Repr

/-- A control request (R144): each part may be absent. -/
structure ControlRequest where
  on    : Option Bool
  speed : Option Int
deriving DecidableEq, Repr

/-- A call of the component framework that acts on the adapter (R150). -/
inductive Call where
  | setup
  | control (q : ControlRequest)
deriving DecidableEq, Repr

/-- The adapter with the one block it owns (R140) and the framework's calls to come, the next one first. -/
structure Rig where
  dpc   : State
  fan   : Fan
  calls : List Call
deriving DecidableEq, Repr

/-- The adapter at creation (R141): off, `speedCount` fixed, nothing written, nothing published, healthy, setup not called. The
speed level is not given (N25): a free value (log entry 23). -/
def Fan.created (speedCount : Int) : Fan where
  on := false
  speedLevel := Config.freeLevel
  speedCount := speedCount
  cachedWiper := none
  failed := false
  published := []
  setUp := false
  task := .ready

/-- Creating the adapter with its own block of build `c` (R140, R141). DESIGN CHOICE (log entry 23): a speed count of 0 or less is
accepted, and such an adapter serves requests like any other (U25, N27). -/
def Rig.create (c : Config) (speedCount : Int) : Host.Outcome Rig Fault Refusal :=
  andThen (State.boot c) fun s => .next ⟨s, Fan.created speedCount, []⟩

/-- `speed_to_wiper` (R147), its tests in the order given there. -/
def speedToWiper (level speedCount : Int) : Nat :=
  if level ≤ 0 then 0
  else if speedCount ≤ level then 128
  else if level * 128 / speedCount = 0 then 1
  else (level * 128 / speedCount).toNat

/-- The adapter goes over to `k`. -/
def Fan.become (k : Task) (f : Fan) : Fan := { f with task := k }

/-- Publication (R148): the on/off flag and the speed level, whatever came of the two parts; the request is over. -/
def Fan.publish (f : Fan) : Fan :=
  { f with published := f.published ++ [(f.on, f.speedLevel)], task := .ready }

/-- The adapter after its speed write came to `st` (R146): on OK the recorded level and the cached value move. -/
def Fan.speedResult (level : Int) (st : Status) (f : Fan) : Fan :=
  if st = .ok then
    { f with speedLevel := level, cachedWiper := some (BitVec.ofNat 8 (speedToWiper level f.speedCount)) }
  else f

/-- The adapter after its terminal write came to `st` (R145): on OK `on` takes the requested value. -/
def Fan.switchResult (v : Bool) (st : Status) (f : Fan) : Fan :=
  if st = .ok then { f with on := v } else f

/-- The adapter after the WRW 0 of setup came to `st` (R143): on OK the cached value is 0, the last value written successfully
(R141), whatever becomes of DIST. -/
def Fan.zeroResult (st : Status) (f : Fan) : Fan :=
  if st = .ok then { f with cachedWiper := some 0#8 } else f

/-- The adapter after setup (R142, R143): off; WRW 0 came to `wiper`, and `terminals` says whether the terminals went well, where
the variant has them. Either failing is fatal for good. -/
def Fan.setupResult (wiper : Status) (terminals : Bool) (f : Fan) : Fan :=
  { f with
    on := false,
    failed := f.failed || !(decide (wiper = .ok) && terminals),
    task := .ready }

/-- One operation of the block for task `k` (R140), whatever its reset input and its ports hold (log entry 24). When its result is
there at once, `go` goes on with it; else the adapter waits, and `Rig.step` goes on with it later. -/
def Rig.issue (i : Instr) (k : Task) (go : Rig → Host.Outcome Rig Fault Refusal) (r : Rig) :
    Host.Outcome Rig Fault Refusal :=
  andThen (exec i r.dpc) fun s =>
    if s.sq = .idle then go { r with dpc := s, fan := r.fan.become k }
    else .next { r with dpc := s, fan := r.fan.become k }

/-- The speed write has a result (R146); the request ends with the publication (R148). -/
def Rig.speedDone (level : Int) (r : Rig) : Host.Outcome Rig Fault Refusal :=
  .next { r with fan := (r.fan.speedResult level r.dpc.status).publish }

/-- The speed part of a request, if it has one (R146): WRW of the converted level. -/
def Rig.startSpeed (speed : Option Int) (r : Rig) : Host.Outcome Rig Fault Refusal :=
  match speed with
  | none => .next { r with fan := r.fan.publish }
  | some level =>
    r.issue (.wrw (BitVec.ofNat 8 (speedToWiper level r.fan.speedCount))) (.speeding level) (Rig.speedDone level)

/-- The terminal write has a result (R145); the speed part follows whatever it is (R144). -/
def Rig.switchDone (v : Bool) (speed : Option Int) (r : Rig) : Host.Outcome Rig Fault Refusal :=
  Rig.startSpeed speed { r with fan := r.fan.switchResult v r.dpc.status }

/-- The on/off part of a request, if it has one (R145): On is ENT, Off is DIST. DESIGN CHOICE (log entry 20): in variant A
the operation is issued too, and the block answers Unsupported (N24, U25). -/
def Rig.startSwitch (on : Option Bool) (speed : Option Int) (r : Rig) : Host.Outcome Rig Fault Refusal :=
  match on with
  | none => r.startSpeed speed
  | some v => r.issue (if v then .ent 0#8 else .dist 0#8) (.switching v speed) (Rig.switchDone v speed)

/-- A control request (R144): on/off first, speed second, each on its own; then publication. A failed adapter refuses it (R142,
N26, log entry 20), and so does one whose setup has not been called (R140, R183, log entry 23). -/
def Rig.control (q : ControlRequest) (r : Rig) : Host.Outcome Rig Fault Refusal :=
  if r.fan.setUp then
    if r.fan.failed then .refused .adapterFailed else r.startSwitch q.on q.speed
  else .refused .notSetUp

/-- DIST has a result: setup is over (R143). -/
def Rig.terminalsDone (wiper : Status) (r : Rig) : Host.Outcome Rig Fault Refusal :=
  .next { r with fan := r.fan.setupResult wiper (decide (r.dpc.status = .ok)) }

/-- WRW 0 has a result, which the cached value takes at once (R141); in variant B DIST follows, whatever it is (R143, log entry
20). -/
def Rig.wiperDone (r : Rig) : Host.Outcome Rig Fault Refusal :=
  match r.dpc.cfg.variant with
  | .A => .next { r with fan := (r.fan.zeroResult r.dpc.status).setupResult r.dpc.status true }
  | .B =>
    Rig.issue (.dist 0#8) (.setupTerminals r.dpc.status) (Rig.terminalsDone r.dpc.status)
      { r with fan := r.fan.zeroResult r.dpc.status }

/-- Setup (R143): WRW 0, then in variant B DIST. Setup a second time is refused (R140, R183, log entry 23). -/
def Rig.setup (r : Rig) : Host.Outcome Rig Fault Refusal :=
  if r.fan.setUp then .refused .setupAgain
  else Rig.issue (.wrw 0#8) .setupWiper Rig.wiperDone { r with fan := { r.fan with setUp := true } }

/-- A call of the framework (R150). -/
def Rig.serve (c : Call) (r : Rig) : Host.Outcome Rig Fault Refusal :=
  match c with
  | .setup => r.setup
  | .control q => r.control q

/-- The operation the adapter waits for has a result: its task goes on. -/
def Rig.proceed (r : Rig) : Host.Outcome Rig Fault Refusal :=
  match r.fan.task with
  | .ready => .next r
  | .setupWiper => r.wiperDone
  | .setupTerminals wiper => r.terminalsDone wiper
  | .switching v speed => r.switchDone v speed
  | .speeding level => r.speedDone level

/-- One step of the adapter with its block. A ready adapter serves the next call, if there is one; a waiting one lets the block go
on (R82), and goes on itself when the result is there (R140). DESIGN CHOICE (log entry 24): the reset input of the block it owns
and the words at its ports are not looked at. -/
def Rig.step (r : Rig) : Host.Outcome Rig Fault Refusal :=
  if r.fan.task = .ready then
    match r.calls with
    | [] => .next r
    | c :: rest => Rig.serve c { r with calls := rest }
  else if r.dpc.resume.sq = .idle then Rig.proceed { r with dpc := r.dpc.resume }
  else .next { r with dpc := r.dpc.resume }

/-- Diagnostics (R150): the configured initial value, the current value, the failed flag. -/
def Rig.dumpConfig (r : Rig) : Byte × Byte × Bool :=
  (r.dpc.dbgInit, r.dpc.dbgW0, r.fan.failed)

/-- The capability query (R150): the number of speed steps, and whether speed control is supported. For the second the spec gives
neither a value nor a condition; DESIGN CHOICE (log entry 23): always true, also for a count of 0 or less (N27). -/
def Rig.traits (r : Rig) : Int × Bool :=
  (r.fan.speedCount, true)

end Sys2Proof.Machine
end

