-- ==== Sys2Proof/Safety.lean ====
section
/-! DEFINITION. What counts as a good state and a good run, in the words the statements use. -/

namespace Sys2Proof

/-- The instruction is a host request, not a frame on the bus (R59, R61). -/
def Instr.isRequest : Instr → Bool
  | .wrw _ => true
  | .rdw _ => true
  | .inc _ => true
  | .dec _ => true
  | .wtc _ _ _ _ _ => true
  | .ent _ => true
  | .dist _ => true
  | .reserved _ => true
  | .busWrite _ _ _ => false
  | .busIncrement _ _ => false
  | .busDecrement _ _ => false
  | .busRead _ _ => false
  | .busWrw _ => false
  | .busInc => false
  | .busDec => false
  | .busRdw => false
  | .busWtc _ => false

end Sys2Proof

namespace Sys2Proof.Machine

/-- The transport completes the next `n` primitives: the liveness premise of R193. -/
def State.Prompt (s : State) (n : Nat) : Prop :=
  ∀ k, k < n → (s.answerAt k).done = true

/-- The transport completes the next `n` primitives and reports success for each. -/
def State.Lucky (s : State) (n : Nat) : Prop :=
  ∀ k, k < n → (s.answerAt k).done = true ∧ (s.answerAt k).ok = true

/-- The bracket is open: `Select()` has been performed and `Deselect()` has not (R15). -/
def Sq.inBracket : Sq → Bool
  | .idle => false
  | .check => false
  | .select => false
  | .b0 => true
  | .b1 => true
  | .b2 => true
  | .b3 => true
  | .finish => true

/-- The operation is past CHECK. -/
def Sq.pastCheck : Sq → Bool
  | .idle => false
  | .check => false
  | .select => true
  | .b0 => true
  | .b1 => true
  | .b2 => true
  | .b3 => true
  | .finish => true

/-- The step is one a frame of that format has (R90). -/
def Sq.inFormat (f : Format) : Sq → Bool
  | .idle => false
  | .check => false
  | .select => true
  | .b0 => true
  | .b1 => decide (f ≠ .s1)
  | .b2 => decide (f = .r4)
  | .b3 => decide (f = .r4)
  | .finish => true

/-- The latched operation is one of the terminal operations WTC, ENT and DIST (R61). -/
def terminalOp (op : BitVec 3) : Bool :=
  decide (op = 4#3) || decide (op = 5#3) || decide (op = 6#3)

/-- The operation of the block has passed CHECK, and `d` holds the data byte CHECK gave, if it gave one (R83). -/
def State.Checked (s : State) : Prop :=
  ∃ data, s.program.check s.cfg s.arg = .proceed data ∧ s.d = data.getD s.d

/-- The invariant of the block: the configuration is well formed (R7); `W[0]` lies in [0, 128] (R11); `sel` is set
exactly inside a bracket (R17); `TC` holds a value in variant B only (R13); an operation past CHECK stands at a step its frame
has (R90), and has passed CHECK with the data byte in `d`, so a WRW there has a byte in [0, 128] (R55), a terminal operation
there runs in variant B (R130), and the reserved request never gets there (R64); a running operation in which a byte failed is at
its `Deselect` (R85); a response is given at an idle block only (R92); the peer's registers are in canonical form (R30). -/
structure State.Inv (s : State) : Prop where
  cfg_wf      : s.cfg.wf
  w0_le       : s.w0 ≤ wiperMax
  sel_bracket : s.sel = s.sq.inBracket
  tc_variant  : s.cfg.variant = .A → s.tc = none
  in_frame    : s.sq.pastCheck = true → s.sq.inFormat s.program.format = true
  checked     : s.sq.pastCheck = true → s.Checked
  fail_finish : s.fail = true → s.sq = .idle ∨ s.sq = .finish
  rsp_idle    : s.rspValid = true → s.sq = .idle
  dev_wf      : Memory.wf s.peer.dev

/-- A byte primitive that failed. -/
def Event.failed : Event → Bool
  | .selected => false
  | .deselected => false
  | .wrote _ ok => !ok
  | .got _ ok => !ok

/-- A byte primitive, not a bracket end. -/
def Event.isByte : Event → Bool
  | .selected => false
  | .deselected => false
  | .wrote _ _ => true
  | .got _ _ => true

/-- One step up of a device register, inside the device's own bound (R45). -/
def deviceUp (v : Byte) : Byte := if v < wiperMax then v + 1#8 else v

/-- One step down of a device register, inside the device's own bound (R45). -/
def deviceDown (v : Byte) : Byte := if wiperMin < v then v - 1#8 else v

/-- `p` is the peer `q` after a store of `v` at register `a`: every other register reads as before. -/
def Peer.Stored (q : Peer) (a : RegAddr) (v : Byte) (p : Peer) : Prop :=
  p.get a = v ∧ ∀ k, k ≠ a.toNat → Memory.read p.dev k = Memory.read q.dev k

/-- `p` is the peer of `s` after a store of `v` at register `a`. A transport under no law leaves the peer of the model alone. -/
def State.StoredAt (s : State) (a : RegAddr) (v : Byte) (p : Peer) : Prop :=
  match s.link with
  | .free => p = s.peer
  | .reference => s.peer.Stored a v p

/-- `p` is the peer of `s` after a frame that stores nothing: every register reads as before. -/
def State.StoredNothing (s : State) (p : Peer) : Prop :=
  match s.link with
  | .free => p = s.peer
  | .reference => ∀ k, Memory.read p.dev k = Memory.read s.peer.dev k

/-- What a finished operation of `n` completed primitives `events` leaves, whatever its result: the block idle, the
bracket closed, a response given, `n` answers used up, the primitives on the bus, the peer as `p`. Every field not
named here is as in `s`. -/
def State.finished (s : State) (n : Nat) (events : List Event) (p : Peer) : State :=
  { s with
    sq := .idle, sel := false, fail := false, rspValid := true,
    tin := s.tin.drop n, tick := s.tick + n, trace := s.trace ++ events, peer := p }

/-- What an operation rejected at CHECK with status `st` leaves: the request latched, no bus traffic (R83, R86), `rdata` free (log
entry 7). Every field not named here is as in `s`. -/
def State.rejected (s : State) (op : BitVec 3) (arg : Byte) (st : Status) : State :=
  { s with
    sq := .idle, fail := false, rspValid := true, op := op, arg := arg,
    status := st, rdata := Config.freeRdata s.draws, draws := s.draws + 1 }

/-- The command byte `{addr, cmd, 00}` (R50, R54, R57). -/
def cmdByte (addr : RegAddr) (cmd : BitVec 2) : Byte := addr ++ cmd ++ 0b00#2

/-- The five command bytes of R54. -/
def emittedBytes (c : Config) : List Byte :=
  [cmdByte c.addrWiper0 c.cmdWrite, cmdByte c.addrWiper0 c.cmdIncrement, cmdByte c.addrWiper0 c.cmdDecrement,
   cmdByte c.addrWiper0 c.cmdRead, cmdByte c.addrTcon c.cmdWrite]

/-- The command byte of each operation, by its opcode (R54, R61). The reserved request has none. -/
def operationByte (c : Config) (op : BitVec 3) : Option Byte :=
  if op = 0#3 then some (cmdByte c.addrWiper0 c.cmdWrite)
  else if op = 1#3 then some (cmdByte c.addrWiper0 c.cmdRead)
  else if op = 2#3 then some (cmdByte c.addrWiper0 c.cmdIncrement)
  else if op = 3#3 then some (cmdByte c.addrWiper0 c.cmdDecrement)
  else if op = 7#3 then none
  else some (cmdByte c.addrTcon c.cmdWrite)

/-- The number of primitives of an operation when nothing fails (R194), by its opcode. The reserved request has none: CHECK
rejects it. -/
def operationPrimitives (op : BitVec 3) : Nat :=
  if op = 1#3 then 6
  else if op = 2#3 then 3
  else if op = 3#3 then 3
  else 4

/-- How many of them are still to come when a running operation stands at a step of its frame and no byte has failed (R84,
R194). -/
def primitivesLeft (op : BitVec 3) : Sq → Nat
  | .idle => operationPrimitives op
  | .check => operationPrimitives op
  | .select => operationPrimitives op
  | .b0 => operationPrimitives op - 1
  | .b1 => operationPrimitives op - 2
  | .b2 => operationPrimitives op - 3
  | .b3 => operationPrimitives op - 4
  | .finish => 1

/-- A byte primitive of the running operation failed in an earlier step (R85). -/
def State.AlreadyFailed (s : State) : Prop := s.sq = .finish ∧ s.fail = true

/-- The instruction is one of WRW, INC and DEC, which write `W[0]` (R24). -/
def writesWiper : Instr → Bool
  | .wrw _ => true
  | .inc _ => true
  | .dec _ => true
  | .rdw _ => false
  | .wtc _ _ _ _ _ => false
  | .ent _ => false
  | .dist _ => false
  | .reserved _ => false
  | .busWrite _ _ _ => false
  | .busIncrement _ _ => false
  | .busDecrement _ _ => false
  | .busRead _ _ => false
  | .busWrw _ => false
  | .busInc => false
  | .busDec => false
  | .busRdw => false
  | .busWtc _ => false

/-- The instruction is one of WTC, ENT and DIST, which write `TC` (R24). -/
def writesTerminals : Instr → Bool
  | .wtc _ _ _ _ _ => true
  | .ent _ => true
  | .dist _ => true
  | .wrw _ => false
  | .rdw _ => false
  | .inc _ => false
  | .dec _ => false
  | .reserved _ => false
  | .busWrite _ _ _ => false
  | .busIncrement _ _ => false
  | .busDecrement _ _ => false
  | .busRead _ _ => false
  | .busWrw _ => false
  | .busInc => false
  | .busDec => false
  | .busRdw => false
  | .busWtc _ => false

/-- `hi` and `lo` are the two bytes a Read frame at register `addr` gets (R43, R47): what the transport drives with its
fourth and fifth answers, or, from the reference peer, zero and the register. -/
def State.Response (s : State) (addr : RegAddr) (hi lo : Byte) : Prop :=
  match s.link with
  | .free => hi = (s.answerAt 3).data ∧ lo = (s.answerAt 4).data
  | .reference => hi = 0#8 ∧ lo = s.peer.get addr

/-- The primitives of a Read frame that goes through (R43): high byte first (R33). -/
def readEvents (c : Config) (cmd hi lo : Byte) : List Event :=
  [.selected, .wrote cmd true, .wrote c.dummyByte true, .got hi true, .got lo true, .deselected]

/-- `o` is the next state of `s` in which a frame from the bus port has stored `v` at register `addr` of the peer and no byte was
driven (log entries 11 and 12): every other register reads as before and the peer's bracket is closed. Nothing of the block has
moved, but for the response pulse. -/
def FrameStored (s : State) (addr : RegAddr) (v : Byte) (o : Host.Outcome State Fault Refusal) : Prop :=
  ∃ p, s.peer.Stored addr v p ∧ p.psel = false ∧ o = .next { s with rspValid := false, reply := [], peer := p }

/-- `o` is the next state of `s` in which a Read frame from the bus port has been answered with `reply` (log entries 11 and 12):
every register holds what it held and the peer's bracket is closed. Nothing of the block has moved, but for the response pulse. -/
def FrameAnswered (s : State) (reply : List Byte) (o : Host.Outcome State Fault Refusal) : Prop :=
  ∃ p, p.dev = s.peer.dev ∧ p.psel = false ∧ o = .next { s with rspValid := false, reply := reply, peer := p }

/-- `o` is a terminal operation of `s` that goes through (R130): the byte of `t` sent to the TerminalControl register, `TC`
holding `t`, the result OK. -/
def TerminalWritten (s : State) (op : BitVec 3) (arg : Byte) (t : TermState) (data : Byte)
    (o : Host.Outcome State Fault Refusal) : Prop :=
  ∃ p, s.StoredAt s.cfg.addrTcon data p ∧
    o = .next
      { s.finished 4 [.selected, .wrote (cmdByte s.cfg.addrTcon s.cfg.cmdWrite) true, .wrote data true, .deselected] p with
        op := op, arg := arg, d := data, tc := some t, status := .ok,
        rdata := Config.freeRdata s.draws, draws := s.draws + 1 }

/-- `new` are the primitives that were added to the bus between `s` and `t`. -/
def BusTraffic (s t : State) (new : List Event) : Prop := t.trace = s.trace ++ new

/-- Every frame of `new` opens with a command byte `b` for which `P b` holds: where the bracket was closed, `Select` comes
first; where it was open with no byte sent, the command byte does. -/
def OpensWith (s : State) (new : List Event) (P : Byte → Prop) : Prop :=
  (s.sel = false → ∀ first e rest, new = first :: e :: rest → first = .selected ∧ ∃ b ok, e = .wrote b ok ∧ P b) ∧
  (s.sq = .b0 → ∀ e rest, new = e :: rest → ∃ b ok, e = .wrote b ok ∧ P b)

/-- A bus call of setup has failed: the flag stands, or will when setup ends (R142, R143). -/
def Fan.doomed (f : Fan) : Bool :=
  f.failed ||
    match f.task with
    | .ready => false
    | .setupWiper => false
    | .setupTerminals wiper => decide (wiper ≠ .ok)
    | .switching _ _ => false
    | .speeding _ => false

/-- The adapter is processing a control request, or will in its next step (R144). -/
def Rig.inControl (r : Rig) : Bool :=
  match r.fan.task with
  | .ready =>
    match r.calls with
    | [] => false
    | .setup :: _ => false
    | .control _ :: _ => true
  | .setupWiper => false
  | .setupTerminals _ => false
  | .switching _ _ => true
  | .speeding _ => true

/-- `r'` is the adapter after a setup of `r` that went well (R143): the wiper at 0 whatever it was, the terminals disconnected
where the variant has them, the adapter off, its cached value 0 (R141), and no more failed than before. -/
def Rig.WellSetUp (r r' : Rig) : Prop :=
  r'.dpc.w0 = 0#8 ∧ r'.dpc.sq = .idle ∧ r'.dpc.sel = false ∧
  (r.dpc.cfg.variant = .B → r'.dpc.tc = some ⟨false, false, false⟩) ∧ (r.dpc.cfg.variant = .A → r'.dpc.tc = r.dpc.tc) ∧
  r'.fan = { r.fan with on := false, cachedWiper := some 0#8, setUp := true, task := .ready } ∧ r'.calls = r.calls

/-- `r'` is the adapter after a request of `r` whose speed write at `level` went well (R146), its on/off flag at `on`: `W[0]` at the
converted level, the level and the cached value recorded, the state published (R148). -/
def Rig.SpeedSet (r : Rig) (on : Bool) (level : Int) (r' : Rig) : Prop :=
  r'.dpc.w0.toNat = speedToWiper level r.fan.speedCount ∧ r'.dpc.sq = .idle ∧
  r'.fan = { r.fan with
    on := on, speedLevel := level, cachedWiper := some (BitVec.ofNat 8 (speedToWiper level r.fan.speedCount)), task := .ready,
    published := r.fan.published ++ [(on, level)] } ∧ r'.calls = r.calls

/-- While the adapter waits for DIST after a WRW 0 that went well, its cached value is 0, the last value written successfully
(R141, R143). -/
def Fan.Current (f : Fan) : Prop := f.task = .setupTerminals .ok → f.cachedWiper = some 0#8

/-- The adapter waits for operation `op` of its block, no byte of which has failed (R140). -/
def Rig.Awaits (r : Rig) (k : Task) (op : BitVec 3) : Prop :=
  r.fan.task = k ∧ r.dpc.Inv ∧ r.dpc.sq ≠ .idle ∧ r.dpc.op = op ∧ r.dpc.fail = false

/-- The adapter may take control requests (R140, R142). -/
def Fan.healthy (f : Fan) : Prop := f.setUp = true ∧ f.failed = false ∧ f.task = .ready

end Sys2Proof.Machine
end

