-- ==== Sys2Proof/Certificates/Slice0/Obligations.lean ====
section
/-! DEFINITION. The statements for the provers. "D<n>" names a decision of spec/92_eei_decisions.md, "entry <n>" a row of
notes/assumptions. A statement whose docstring names one rests on that choice; the others rest on rules alone. -/

open Sys2Proof Sys2Proof.Machine

/-! ### Encodings -/

/-- The command encoder (R70): its formula, which is the concatenation of its three fields. -/
def Obligations.CommandEncoderConcatenatesFields : Prop :=
  ∀ (address : BitVec 4) (command extra : BitVec 8),
    commandByte address command extra = (address.setWidth 8 <<< 4) ||| (command &&& 0b00001100#8) ||| (extra &&& 0b00000011#8) ∧
    commandByte address command extra = address ++ command.extractLsb' 2 2 ++ extra.extractLsb' 0 2

/-- The document's encoder law (R71). -/
def Obligations.CommandEncoderLaw : Prop :=
  ∀ (address : BitVec 4) (command : BitVec 8), command ∈ [0#8, 4#8, 8#8, 12#8] →
    commandByte address command 0#8 = (address.setWidth 8 <<< 4) ||| command

/-- What the encoder's masks drop and what they keep (40_command_encoder.md, corner cases (a) to (d)): a code that is
not pre-shifted is lost; bits of the command outside 3:2 and of the extra data above 1 do not matter; nothing else is
lost. -/
def Obligations.CommandEncoderMasks : Prop :=
  (∀ (a : BitVec 4) (code : BitVec 2) (x : BitVec 8), commandByte a (code.setWidth 8) x = commandByte a 0#8 x) ∧
  (∀ a : BitVec 4, commandByte a 0xFF#8 0#8 = a ++ 0b1100#4) ∧
  (∀ (a : BitVec 4) (c : BitVec 8), commandByte a c 0xFC#8 = commandByte a c 0#8) ∧
  (∀ (a a' : BitVec 4) (c c' x x' : BitVec 8), commandByte a c x = commandByte a' c' x' →
    a = a' ∧ c.extractLsb' 2 2 = c'.extractLsb' 2 2 ∧ x.extractLsb' 0 2 = x'.extractLsb' 0 2)

/-- The command bytes the block emits, at the default addresses and codes (the family's, PRESUMED, entries 2 and 3). -/
def Obligations.EmittedBytesOfTheDefaultBuild : Prop :=
  wrwByte Config.default = 0x00#8 ∧ incByte Config.default = 0x04#8 ∧ decByte Config.default = 0x08#8 ∧
  rdwByte Config.default = 0x0C#8 ∧ wtcByte Config.default = 0x40#8

/-- The terminal-connection byte (R14): its formula, its layout with A, W and B at bits 3, 2 and 1 and every other bit 1, its
eight values; and it is the data byte WTC puts on the bus, wherever its frame goes through. -/
def Obligations.TerminalByteLayout : Prop :=
  ∀ a w b : Bool,
    tconByte ⟨a, w, b⟩ = 0xFF#8 &&& ~~~((if a then 0#8 else 0x08#8) ||| (if w then 0#8 else 0x04#8) |||
      (if b then 0#8 else 0x02#8)) ∧
    tconByte ⟨a, w, b⟩ = 0b1111#4 ++ BitVec.ofBool a ++ BitVec.ofBool w ++ BitVec.ofBool b ++ 1#1 ∧
    tconByte ⟨a, w, b⟩ ∈ [0xFF#8, 0xFD#8, 0xFB#8, 0xF9#8, 0xF7#8, 0xF5#8, 0xF3#8, 0xF1#8] ∧
    ∀ (xh : BitVec 4) (xl : Bool) (s : State), s.cfg.wf → s.sq = .idle → s.cfg.variant = .B → s.Lucky 4 →
      ∃ t, exec (.wtc a w b xh xl) s = .next t ∧
        BusTraffic s t [.selected, .wrote (cmdByte s.cfg.addrTcon s.cfg.cmdWrite) true, .wrote (tconByte ⟨a, w, b⟩) true, .deselected]

/-- Decode and encode agree, in every well-formed build, on every well-formed instruction with every operand (the host
port's numbering is D5, its byte layout entry 10, the rows' overlap entry 13). -/
def Obligations.DecodeOfEncodeIsTheInstruction : Prop :=
  ∀ (c : Config) (i : Instr), c.wf → i.wf c → decode c (encode c i) = .ok i

/-- Every 11-bit host request is some request's word (D5): no bit of it is dropped. -/
def Obligations.EncodeOfDecodedRequestIsTheRequest : Prop :=
  ∀ (c : Config) (op : BitVec 3) (arg : Byte),
    encode c (decodeRequest op arg) = requestWord op arg ∧ (decodeRequest op arg).isRequest = true

/-- In a well-formed build every command byte followed by a data byte is a well-formed instruction that encodes back to that
command byte, and to that data byte if it is a Write (the five rows of R54 before the generic ones, entry 13). -/
def Obligations.EveryCommandByteDecodes : Prop :=
  ∀ (c : Config) (b data : Byte), c.wf →
    ∃ i : Instr, decode c ⟨.bus, [b, data]⟩ = .ok i ∧ i.wf c ∧ i.isRequest = false ∧
      ((encode c i).bytes = [b, data] ∨
        b.extractLsb' 2 2 ≠ c.cmdWrite ∧ (encode c i).bytes = [b])

/-- Words of the opcode table, written out, are the instructions they stand for in the default build (D5, and entries 2, 3,
13). -/
def Obligations.TableWordsDecode : Prop :=
  decodeTableWord 16 0x0C8 = some (.wrw 200#8) ∧
  decodeTableWord 16 0x40A = some (.wtc true false true 0#4 false) ∧
  decodeTableWord 16 0x600 = some (.dist 0#8) ∧
  decodeTableWord 8 0x08 = some .busDec ∧
  decodeTableWord 8 0x7D = some (.busRead 7#4 1#2)

/-! ### Reset and the step -/

/-- Reset (10_state.md section 7, 70_reset_and_hazards.md section 1; D9, D12, D13): `W[0]` holds `INIT_VALUE`, `TC` no
value, the block is idle with the bracket closed and `fail` clear, and no primitive has been issued. -/
def Obligations.ResetValues : Prop :=
  ∀ c : Config,
    (State.powerOn c).cfg = c ∧ (State.powerOn c).w0 = c.initValue ∧ (State.powerOn c).tc = none ∧
    (State.powerOn c).sq = .idle ∧ (State.powerOn c).sel = false ∧ (State.powerOn c).fail = false ∧
    (State.powerOn c).trace = []

/-- The reset input (D13): at an idle block it restores the power-up values and issues no primitive; while an operation
runs it is refused. That the step lowers the input again and that the peer keeps its registers is the model's choice (entry
21). -/
def Obligations.ResetInputActsOnAnIdleBlock : Prop :=
  ∀ s : State, s.rst = true →
    (s.sq = .idle → ∃ t, step s = .next t ∧ t.cfg = s.cfg ∧ t.w0 = s.cfg.initValue ∧ t.tc = none ∧
      t.sq = .idle ∧ t.sel = false ∧ t.fail = false ∧ t.rst = false ∧ t.trace = s.trace ∧ t.peer = s.peer) ∧
    (s.sq ≠ .idle → step s = .refused .resetWhileBusy)

/-- A step runs the decoded instruction: an idle block out of reset takes the waiting word and runs the instruction it
stands for, in the state without that word. That a step takes the head of the list of waiting words and runs it whole is the
model's choice (entries 9 and 10). -/
def Obligations.StepRunsTheDecodedInstruction : Prop :=
  ∀ (s : State) (w : PortWord) (rest : List PortWord) (i : Instr),
    s.rst = false → s.sq = .idle → s.pending = w :: rest → decode s.cfg w = .ok i →
      step s = exec i { s with pending := rest }

/-- The steps that run no instruction (70_reset_and_hazards.md section 1, 41_sequencer.md section 3, D13, D23; entries 8 and
10): an idle block with no request waits; a word that decodes to nothing is refused; a request while the block is busy is
not accepted and has no effect. That `exec` of a request at a busy block says this, and that a frame from the bus port has no
effect there either, is the model's choice (entries 9 and 11). -/
def Obligations.StepsWithoutAnInstruction : Prop :=
  ∀ s : State, s.rst = false →
    (s.sq = .idle → s.pending = [] → step s = .next { s with rspValid := false }) ∧
    (∀ w rest e, s.sq = .idle → s.pending = w :: rest → decode s.cfg w = .error e →
      step s = .refused (.undecodable e)) ∧
    (s.sq ≠ .idle → ∀ i, exec i s = .next s) ∧
    (s.sq ≠ .idle → ∃ t, step s = .next t ∧ t.pending = s.pending)

/-- The invariant holds after reset of every well-formed build. -/
def Obligations.InvariantHoldsAfterReset : Prop :=
  ∀ c : Config, c.wf → (State.powerOn c).Inv

/-- The invariant holds at the model's reset state (the default build, entry 1). -/
def Obligations.InvariantHoldsAtTheResetState : Prop :=
  State.reset.Inv

/-- Every step keeps the invariant: a legal configuration, `W[0]` in [0, 128], `sel` set exactly inside a bracket, `TC`
in variant B only, an operation past CHECK at a step of its frame with the data byte its CHECK gave, a failed operation at its
`Deselect`, a response at an idle block only, and the peer's registers in canonical form. -/
def Obligations.EveryStepKeepsTheInvariant : Prop :=
  ∀ s t : State, s.Inv → step s = .next t → t.Inv

/-- `sel` is 1 from the `Select()` step to the `Deselect()` step and 0 otherwise (R17): every step keeps this, and it makes `sel`
0 whenever the block is idle. -/
def Obligations.SelIsSetExactlyInsideTheBracket : Prop :=
  ∀ s t : State, s.sel = s.sq.inBracket → step s = .next t →
    t.sel = t.sq.inBracket ∧ (t.sq = .idle → t.sel = false)

/-- The build never changes (00_scope.md section 5): no step changes the configuration. -/
def Obligations.EveryStepKeepsTheConfiguration : Prop :=
  ∀ s t : State, step s = .next t → t.cfg = s.cfg

/-! ### The wiper operations -/

/-- WRW in range, or in the lenient variant, with a transport that completes and confirms the frame (42_wiper_write.md;
D5, D15, D16): the frame to Wiper0 with data byte `min(v, 128)`, `W[0]` taking that byte, status OK, nothing else
changed; `rdata` is free (entry 7). -/
def Obligations.WrwCompletes : Prop :=
  ∀ (v : Byte) (s : State), s.cfg.wf → s.sq = .idle → (s.cfg.variant = .B → v.toNat ≤ 128) → s.Lucky 4 →
    ∃ d p, d.toNat = min v.toNat 128 ∧ s.StoredAt s.cfg.addrWiper0 d p ∧
      exec (.wrw v) s = .next
        { s.finished 4 [.selected, .wrote (cmdByte s.cfg.addrWiper0 s.cfg.cmdWrite) true, .wrote d true, .deselected] p with
          op := 0#3, arg := v, d := d, w0 := d, status := .ok,
          rdata := Config.freeRdata s.draws, draws := s.draws + 1 }

/-- WRW above 128 in the strict variant (42_wiper_write.md; D5): RangeViolation with no bus traffic, whatever the
transport; `W[0]` and everything else unchanged, but for the latched request and `rdata`, which is free (entry 7). -/
def Obligations.WrwOutOfRangeIsRejectedByTheStrictVariant : Prop :=
  ∀ (v : Byte) (s : State), s.sq = .idle → s.cfg.variant = .B → 128 < v.toNat →
    exec (.wrw v) s = .next (s.rejected 0#3 v .rangeViolation)

/-- RDW with a transport that completes and confirms the frame (43_wiper_read.md; D4, D5, D10, D30): command byte, dummy
byte, high byte, low byte; the low byte is the value if it is at most 128, else IntegrityViolation; the high byte is not
looked at; `W[0]` unchanged. -/
def Obligations.RdwCompletes : Prop :=
  ∀ (x : Byte) (s : State), s.cfg.wf → s.sq = .idle → s.Lucky 6 →
    ∃ p hi lo, s.StoredNothing p ∧ s.Response s.cfg.addrWiper0 hi lo ∧
      exec (.rdw x) s = .next
        { s.finished 6 (readEvents s.cfg (cmdByte s.cfg.addrWiper0 s.cfg.cmdRead) hi lo) p with
          op := 1#3, arg := x, hi := hi, lo := lo,
          status := if lo.toNat ≤ 128 then .ok else .integrityViolation,
          rdata := if lo.toNat ≤ 128 then lo else Config.freeRdata s.draws,
          draws := if lo.toNat ≤ 128 then s.draws else s.draws + 1 }

/-- INC with a transport that completes and confirms the frame (44_wiper_step.md; D5): the Increment byte is sent whatever
`W[0]` holds; below 128 `W[0]` goes up by one and the status is OK, at 128 it stays and the status is AlreadyAtBound. -/
def Obligations.IncCompletes : Prop :=
  ∀ (x : Byte) (s : State), s.cfg.wf → s.sq = .idle → s.Lucky 3 →
    ∃ p, s.StoredAt s.cfg.addrWiper0 (deviceUp (s.peer.get s.cfg.addrWiper0)) p ∧
      exec (.inc x) s = .next
        { s.finished 3 [.selected, .wrote (cmdByte s.cfg.addrWiper0 s.cfg.cmdIncrement) true, .deselected] p with
          op := 2#3, arg := x,
          w0 := if s.w0 = 128#8 then s.w0 else s.w0 + 1#8,
          status := if s.w0 = 128#8 then .alreadyAtBound else .ok,
          rdata := Config.freeRdata s.draws, draws := s.draws + 1 }

/-- DEC with a transport that completes and confirms the frame (44_wiper_step.md; D5): the Decrement byte is sent whatever
`W[0]` holds; above 0 `W[0]` goes down by one and the status is OK, at 0 it stays and the status is AlreadyAtBound. -/
def Obligations.DecCompletes : Prop :=
  ∀ (x : Byte) (s : State), s.cfg.wf → s.sq = .idle → s.Lucky 3 →
    ∃ p, s.StoredAt s.cfg.addrWiper0 (deviceDown (s.peer.get s.cfg.addrWiper0)) p ∧
      exec (.dec x) s = .next
        { s.finished 3 [.selected, .wrote (cmdByte s.cfg.addrWiper0 s.cfg.cmdDecrement) true, .deselected] p with
          op := 3#3, arg := x,
          w0 := if s.w0 = 0#8 then s.w0 else s.w0 - 1#8,
          status := if s.w0 = 0#8 then .alreadyAtBound else .ok,
          rdata := Config.freeRdata s.draws, draws := s.draws + 1 }

/-! ### The terminal operations -/

/-- WTC in the strict variant, with a transport that completes and confirms the frame (45_terminal_connection.md; D5, D11):
the byte of the three booleans goes to the TerminalControl register, `TC` takes them, status OK; the ignored operand
bits change nothing but the latched operand. -/
def Obligations.WtcCompletes : Prop :=
  ∀ (a w b : Bool) (xh : BitVec 4) (xl : Bool) (s : State),
    s.cfg.wf → s.sq = .idle → s.cfg.variant = .B → s.Lucky 4 →
      TerminalWritten s 4#3 (xh ++ BitVec.ofBool a ++ BitVec.ofBool w ++ BitVec.ofBool b ++ BitVec.ofBool xl) ⟨a, w, b⟩
        (0b1111#4 ++ BitVec.ofBool a ++ BitVec.ofBool w ++ BitVec.ofBool b ++ 1#1)
        (exec (.wtc a w b xh xl) s)

/-- ENT in the strict variant, with a transport that completes and confirms the frame (45_terminal_connection.md; D5, D11):
0xFF to the TerminalControl register, all three terminals connected in `TC`, status OK. -/
def Obligations.EntCompletes : Prop :=
  ∀ (x : Byte) (s : State), s.cfg.wf → s.sq = .idle → s.cfg.variant = .B → s.Lucky 4 →
    TerminalWritten s 5#3 x ⟨true, true, true⟩ 0xFF#8 (exec (.ent x) s)

/-- DIST in the strict variant, with a transport that completes and confirms the frame (45_terminal_connection.md; D5,
D11; conflict C1): 0xF1 to the TerminalControl register, all three terminals disconnected in `TC`, status OK. -/
def Obligations.DistCompletes : Prop :=
  ∀ (x : Byte) (s : State), s.cfg.wf → s.sq = .idle → s.cfg.variant = .B → s.Lucky 4 →
    TerminalWritten s 6#3 x ⟨false, false, false⟩ 0xF1#8 (exec (.dist x) s)

/-- ENT and DIST behave in every respect as WTC 1,1,1 and WTC 0,0,0 (30_encoding.md section 4), whatever the transport does: but
for the latched request (`op` and `arg`) the states are equal, in the step that takes the request and in every step that goes
on with one that had to wait (entry 8). Two runs are compared that get the same free answers and the same unspecified `rdata`,
which is the model's choice (entries 6 and 7). -/
def Obligations.PseudoOperationsActAsTheirExpansions : Prop :=
  (∀ (x : Byte) (xh : BitVec 4) (xl : Bool) (s : State), s.sq = .idle →
    (∃ t u, exec (.ent x) s = .next t ∧ exec (.wtc true true true xh xl) s = .next u ∧
      { t with op := u.op, arg := u.arg } = u) ∧
    (∃ t u, exec (.dist x) s = .next t ∧ exec (.wtc false false false xh xl) s = .next u ∧
      { t with op := u.op, arg := u.arg } = u)) ∧
  (∀ (xh : BitVec 4) (xl : Bool) (s : State), s.rst = false → s.sq ≠ .idle →
    (s.op = 5#3 → ∃ t u, step s = .next t ∧
      step { s with op := 4#3, arg := xh ++ 0b111#3 ++ BitVec.ofBool xl } = .next u ∧ { t with op := u.op, arg := u.arg } = u) ∧
    (s.op = 6#3 → ∃ t u, step s = .next t ∧
      step { s with op := 4#3, arg := xh ++ 0b000#3 ++ BitVec.ofBool xl } = .next u ∧ { t with op := u.op, arg := u.arg } = u))

/-- The reserved request (30_encoding.md section 5; D5, D17): status Unsupported, no bus traffic, nothing else changed but the
latched request and `rdata`, which is free (entry 7). -/
def Obligations.ReservedRequestCompletes : Prop :=
  ∀ (x : Byte) (s : State), s.sq = .idle → exec (.reserved x) s = .next (s.rejected 7#3 x .unsupported)

/-- The terminal operations in the lenient variant (30_encoding.md section 5; D5, D17): status Unsupported, no bus traffic,
nothing else changed but the latched request and `rdata`, which is free (entry 7). -/
def Obligations.TerminalOperationsAreUnsupportedInTheLenientVariant : Prop :=
  ∀ (a w b : Bool) (xh : BitVec 4) (xl : Bool) (x : Byte) (s : State), s.sq = .idle → s.cfg.variant = .A →
    exec (.wtc a w b xh xl) s =
      .next (s.rejected 4#3 (xh ++ BitVec.ofBool a ++ BitVec.ofBool w ++ BitVec.ofBool b ++ BitVec.ofBool xl) .unsupported) ∧
    exec (.ent x) s = .next (s.rejected 5#3 x .unsupported) ∧
    exec (.dist x) s = .next (s.rejected 6#3 x .unsupported)

/-! ### Frames from the bus port -/

/-- The Write rows of the bus: the frame reaches the reference peer, which stores the data byte at the row's register (20_memory.md
section 6, D22); nothing of the block moves, whatever its variant and its transport. That a bus row is a frame the device side
takes is the model's reading (entries 11 and 12). -/
def Obligations.BusWriteFramesComplete : Prop :=
  ∀ (addr : RegAddr) (dx : BitVec 2) (data : Byte) (s : State), s.cfg.wf → s.sq = .idle →
    FrameStored s addr data (exec (.busWrite addr dx data) s) ∧
    FrameStored s s.cfg.addrWiper0 data (exec (.busWrw data) s) ∧
    FrameStored s s.cfg.addrTcon data (exec (.busWtc data) s)

/-- The Increment and Decrement rows of the bus: the reference peer steps the row's register inside its own bounds (20_memory.md
section 6, D22); nothing of the block moves. That a bus row is a frame the device side takes is the model's reading (entries 11
and 12). -/
def Obligations.BusStepFramesComplete : Prop :=
  ∀ (addr : RegAddr) (dx : BitVec 2) (s : State), s.cfg.wf → s.sq = .idle →
    FrameStored s addr (deviceUp (s.peer.get addr)) (exec (.busIncrement addr dx) s) ∧
    FrameStored s addr (deviceDown (s.peer.get addr)) (exec (.busDecrement addr dx) s) ∧
    FrameStored s s.cfg.addrWiper0 (deviceUp (s.peer.get s.cfg.addrWiper0)) (exec .busInc s) ∧
    FrameStored s s.cfg.addrWiper0 (deviceDown (s.peer.get s.cfg.addrWiper0)) (exec .busDec s)

/-- The Read rows of the bus: the reference peer answers with zero and then the row's register (20_memory.md section 6, D22) and
stores nothing; nothing of the block moves. That a bus row is a frame the device side takes, and that its two bytes stand in
`reply`, is the model's reading (entries 11 and 12). -/
def Obligations.BusReadFramesComplete : Prop :=
  ∀ (addr : RegAddr) (dx : BitVec 2) (s : State), s.cfg.wf → s.sq = .idle →
    FrameAnswered s [0x00#8, s.peer.get addr] (exec (.busRead addr dx) s) ∧
    FrameAnswered s [0x00#8, s.peer.get s.cfg.addrWiper0] (exec .busRdw s)

/-! ### The whole machine

These statements are about steps. A step that ends an operation gives the response, `rspValid`; it may have taken the request
itself, or have gone on with one that an earlier step left waiting (entry 8). The operation is the latched `op`. -/

/-- TransportFailure is reported exactly when some byte primitive of the operation failed, and never otherwise
(41_sequencer.md section 1; D7, D14; entry 8): in the step that ends it or in one before, which leaves the mark in `fail`. -/
def Obligations.TransportFailureMeansAFailedByte : Prop :=
  ∀ s t : State, s.Inv → step s = .next t →
    ∃ new, BusTraffic s t new ∧
      (t.rspValid = true → (t.status = .transportFailure ↔ s.AlreadyFailed ∨ ∃ e ∈ new, e.failed = true)) ∧
      (t.sq ≠ .idle → (t.AlreadyFailed ↔ s.AlreadyFailed ∨ ∃ e ∈ new, e.failed = true))

/-- After a failed byte the rest of the frame is skipped and `Deselect` follows at once (41_sequencer.md section 2; D8), or, while
the transport does not complete that, nothing (entry 8). -/
def Obligations.FailedByteIsFollowedByDeselect : Prop :=
  ∀ s t : State, s.Inv → step s = .next t →
    ∃ new, BusTraffic s t new ∧
      (s.AlreadyFailed → new = [.deselected] ∧ t.rspValid = true ∨ new = [] ∧ t.AlreadyFailed) ∧
      ∀ before e after, new = before ++ e :: after → e.failed = true →
        after = [.deselected] ∧ t.rspValid = true ∨ after = [] ∧ t.AlreadyFailed

/-- Every path that performed `Select` performs `Deselect` exactly once before the operation ends, and a path that never
selected generates no bus traffic (41_sequencer.md section 2; entry 8): over the steps of an operation the primitives are one
`Select`, bytes, one `Deselect`, or none at all; a step that neither ends an operation nor leaves one waiting issues none. -/
def Obligations.EveryBracketIsClosedOnce : Prop :=
  ∀ s t : State, s.Inv → step s = .next t →
    ∃ new, BusTraffic s t new ∧
      (t.rspValid = true → t.sel = false ∧
        (s.sel = false → new = [] ∨ ∃ bytes, (∀ e ∈ bytes, e.isByte = true) ∧ new = .selected :: bytes ++ [.deselected]) ∧
        (s.sel = true → ∃ bytes, (∀ e ∈ bytes, e.isByte = true) ∧ new = bytes ++ [.deselected])) ∧
      (t.sq ≠ .idle →
        (s.sel = false → new = [] ∧ t.sel = false ∨
          ∃ bytes, (∀ e ∈ bytes, e.isByte = true) ∧ new = .selected :: bytes ∧ t.sel = true) ∧
        (s.sel = true → (∀ e ∈ new, e.isByte = true) ∧ t.sel = true)) ∧
      (t.rspValid = false → t.sq = .idle → new = [] ∧ t.sel = false)

/-- An operation whose transport hangs has changed no architectural register and given no result (41_sequencer.md sections 1
and 2; entry 8), the bracket is open as far as it got, and the block still asks for the primitive: in the step that took the
request, and in every step that finds the operation waiting and leaves it so. -/
def Obligations.HungOperationChangesNoRegister : Prop :=
  ∀ s t : State, s.Inv → step s = .next t → t.sq ≠ .idle →
    t.w0 = s.w0 ∧ t.tc = s.tc ∧ t.status = s.status ∧ t.rdata = s.rdata ∧ t.rspValid = false ∧
    t.sel = t.sq.inBracket ∧ t.tReq = true ∧
    (s.sq ≠ .idle → t.op = s.op ∧ t.arg = s.arg)

/-- A primitive may never complete (41_sequencer.md section 1, entry 8): when the transport does not complete `Select`, a
request either is rejected at CHECK or stays at its `Select` step with nothing on the bus; and a busy block past CHECK whose
primitive is not completed stands still, one answer used up. -/
def Obligations.StalledPrimitiveHoldsTheBlock : Prop :=
  (∀ (i : Instr) (s t : State), i.isRequest = true → s.sq = .idle → (s.answerAt 0).done = false → exec i s = .next t →
    t.trace = s.trace ∧
    (t.sq = .select ∨ t.sq = .idle ∧ (t.status = .rangeViolation ∨ t.status = .unsupported))) ∧
  (∀ s : State, s.Inv → s.rst = false → s.sq.pastCheck = true → (s.answerAt 0).done = false →
    step s = .next { s with tin := s.tin.drop 1, tick := s.tick + 1 })

/-- An operation always ends in a bounded number of steps provided every primitive completes (41_sequencer.md section 2, D9,
D25): a request in one step from idle, and a block that was left waiting, in its next step (entry 8). -/
def Obligations.OperationsEndWhenTheTransportAnswers : Prop :=
  (∀ (i : Instr) (s : State), s.sq = .idle → s.Prompt 6 → ∃ t, exec i s = .next t ∧ t.sq = .idle) ∧
  (∀ s : State, s.Inv → s.rst = false → s.sq ≠ .idle → s.Prompt 6 →
    ∃ t, step s = .next t ∧ t.sq = .idle ∧ t.sel = false ∧ t.rspValid = true)

/-- An error has no effect but its result (60_exceptions.md section 4; D17): a step that ends an operation with an error leaves
`W[0]` and `TC` as they were and the bracket closed, by a `Deselect` if it was open; so do the steps that left the operation
waiting before (`HungOperationChangesNoRegister`). -/
def Obligations.ErrorLeavesTheShadowRegisters : Prop :=
  ∀ s t : State, s.Inv → step s = .next t → t.sq = .idle → t.rspValid = true → t.status ≠ .ok →
    t.w0 = s.w0 ∧ t.tc = s.tc ∧ t.sel = false ∧
    ∃ new, BusTraffic s t new ∧ (new = [] ∧ s.sel = false ∨ new.getLast? = some .deselected)

/-- IntegrityViolation and AlreadyAtBound (60_exceptions.md sections 1 and 3): only RDW reports the first, with a low byte above 128;
only INC and DEC report the second, decided on the shadow, their frame sent; either only when no byte of the frame failed, since
TransportFailure comes first (D14), and neither writes a shadow register. And what RDW reports (43_wiper_read.md; D5, D30), also
where it had to wait (entry 8): with OK the low byte, at most 128; above 128, with no byte failed, IntegrityViolation; the low
byte is the last one its frame got, in this step or, where only `Deselect` was left, in one before. -/
def Obligations.ValueErrorsComeAfterAWholeFrame : Prop :=
  ∀ s t : State, s.Inv → step s = .next t → t.rspValid = true →
    ∃ new, BusTraffic s t new ∧
      (t.status = .integrityViolation → t.op = 1#3 ∧ 128 < t.lo.toNat) ∧
      (t.status = .alreadyAtBound → t.op = 2#3 ∧ s.w0 = 128#8 ∨ t.op = 3#3 ∧ s.w0 = 0#8) ∧
      (t.status = .integrityViolation ∨ t.status = .alreadyAtBound →
        ¬ s.AlreadyFailed ∧ (∀ e ∈ new, e.failed = false) ∧ new.length = primitivesLeft t.op s.sq ∧
        t.w0 = s.w0 ∧ t.tc = s.tc) ∧
      (t.op = 1#3 → t.status = .ok → t.rdata = t.lo ∧ t.lo.toNat ≤ 128) ∧
      (t.op = 1#3 → ¬ s.AlreadyFailed → (∀ e ∈ new, e.failed = false) → 128 < t.lo.toNat → t.status = .integrityViolation) ∧
      (t.op = 1#3 → s.sq ≠ .finish → t.status ≠ .transportFailure →
        ∃ before b, new = before ++ [.got b true, .deselected] ∧ t.lo = b) ∧
      (s.sq = .finish → t.lo = s.lo)

/-- Who writes the shadow registers, and with what (10_state.md section 7; D10, D11): of the instructions, `W[0]` is written by WRW,
INC and DEC only, `TC` by WTC, ENT and DIST only. Of the steps, whether they take the request themselves or go on with one that
waited (entry 8): outside a reset a shadow register moves only in the step that ends such an operation with status OK, and that
step writes the requested value. -/
def Obligations.ShadowRegistersHaveTheirOwnWriters : Prop :=
  (∀ (i : Instr) (s t : State), exec i s = .next t →
    (writesWiper i = false → t.w0 = s.w0) ∧ (writesTerminals i = false → t.tc = s.tc)) ∧
  (∀ s t : State, s.Inv → s.rst = false → step s = .next t →
    (t.w0 ≠ s.w0 → t.rspValid = true ∧ t.status = .ok ∧ (t.op = 0#3 ∨ t.op = 2#3 ∨ t.op = 3#3)) ∧
    (t.tc ≠ s.tc → t.rspValid = true ∧ t.status = .ok ∧ terminalOp t.op = true) ∧
    (s.sq ≠ .idle → t.op = s.op ∧ t.arg = s.arg) ∧
    (t.rspValid = true → t.status = .ok →
      (t.op = 0#3 → t.w0 = t.d ∧ t.w0.toNat = min t.arg.toNat 128) ∧
      (t.op = 2#3 → s.w0.toNat < 128 ∧ t.w0 = s.w0 + 1#8) ∧
      (t.op = 3#3 → 0 < s.w0.toNat ∧ t.w0 = s.w0 - 1#8) ∧
      (t.op = 4#3 → t.tc = some ⟨t.arg.getLsbD 3, t.arg.getLsbD 2, t.arg.getLsbD 1⟩) ∧
      (t.op = 5#3 → t.tc = some ⟨true, true, true⟩) ∧
      (t.op = 6#3 → t.tc = some ⟨false, false, false⟩)))

/-- No step puts a command byte on the bus but the five of the table of emitted bytes, each with 00 in its low two bits, and each
for the operations the table gives it to (30_encoding.md sections 2 and 5): a bracket opens with the command byte of the running
operation, whether one step or several bring it there (entry 8); a frame from the bus port puts none there (entry 11). -/
def Obligations.StepsEmitOnlyTheFiveCommandBytes : Prop :=
  ∀ s t : State, s.Inv → step s = .next t →
    ∃ new, BusTraffic s t new ∧
      OpensWith s new fun b =>
        b ∈ emittedBytes s.cfg ∧ b.extractLsb' 0 2 = 0#2 ∧ operationByte s.cfg t.op = some b

/-- The number of transport primitives of an operation (70_reset_and_hazards.md section 4): by its kind when nothing fails, of
which a step that goes on with a waiting operation (entry 8) issues those left; none when CHECK rejects it; `k + 2` when the
`k`-th byte fails. -/
def Obligations.PrimitiveCounts : Prop :=
  ∀ s t : State, s.Inv → step s = .next t → t.rspValid = true →
    ∃ new, BusTraffic s t new ∧
      (t.status = .rangeViolation ∨ t.status = .unsupported → s.sel = false ∧ new = []) ∧
      (t.status ≠ .rangeViolation → t.status ≠ .unsupported → t.status ≠ .transportFailure →
        new.length = primitivesLeft t.op s.sq) ∧
      (s.sel = false → ∀ bytes e after, new = .selected :: bytes ++ e :: after → e.failed = true →
        new.length = (bytes.length + 1) + 2) ∧
      (s.sel = true → ∀ bytes e after, new = bytes ++ e :: after → e.failed = true → new.length = bytes.length + 2)

/-- The diagnostics port (10_state.md sections 3 and 6, 60_exceptions.md section 5; D5, D6, D24): it reports the configured initial value and
`W[0]`; in variant B whether `TC` holds a value, and as which byte, which after a terminal operation with status OK is the data
byte that operation sent; in variant A every read of `TC` is an error. The adapter's dump reports the first two beside its
failed flag. -/
def Obligations.DiagnosticsPortReportsTheRegisters : Prop :=
  (∀ s : State,
    s.dbgInit = s.cfg.initValue ∧ s.dbgW0 = s.w0 ∧
    (s.cfg.variant = .A →
      s.readTerminals = .fault .noTerminalRegister ∧ s.dbgTcValid = .fault .noTerminalRegister ∧
      s.dbgTc = .fault .noTerminalRegister) ∧
    (s.cfg.variant = .B → s.tc = none →
      s.readTerminals = .next none ∧ s.dbgTcValid = .next false ∧ s.dbgTc = .next none) ∧
    (s.cfg.variant = .B → ∀ a w b : Bool, s.tc = some ⟨a, w, b⟩ →
      s.readTerminals = .next (some ⟨a, w, b⟩) ∧ s.dbgTcValid = .next true ∧
      s.dbgTc = .next (some (0b1111#4 ++ BitVec.ofBool a ++ BitVec.ofBool w ++ BitVec.ofBool b ++ 1#1)))) ∧
  (∀ s t : State, s.Inv → step s = .next t → t.rspValid = true → t.status = .ok → terminalOp t.op = true →
    t.dbgTcValid = .next true ∧ t.dbgTc = .next (some t.d)) ∧
  (∀ r : Rig, r.dumpConfig = (r.dpc.cfg.initValue, r.dpc.w0, r.fan.failed))

/-- The host port as signals (30_encoding.md section 4, 41_sequencer.md section 4; D5, D6): the numbers of the statuses, each
given by the operations the table names and no number above 101; a request waiting at the port shows on the request signals, and
one that is ready is latched as they show it; a frame of the bus is no request (entries 9 to 11); a response is given at a block
that is ready for the next request. -/
def Obligations.HostPortSignalsShowTheBlock : Prop :=
  (Status.ok.code = 0b000#3 ∧ Status.transportFailure.code = 0b001#3 ∧ Status.rangeViolation.code = 0b010#3 ∧
    Status.integrityViolation.code = 0b011#3 ∧ Status.alreadyAtBound.code = 0b100#3 ∧ Status.unsupported.code = 0b101#3) ∧
  (∀ s : State, s.rspStatus = s.status.code ∧ s.rspRdata = s.rdata ∧ (s.reqReady = true ↔ s.sq = .idle)) ∧
  (∀ (s : State) (op : BitVec 3) (arg : Byte) (rest : List PortWord), s.pending = requestWord op arg :: rest →
    s.reqValid = true ∧ s.reqOp = some op ∧ s.reqArg = some arg ∧
    (s.rst = false → s.reqReady = true → ∃ t, step s = .next t ∧ t.op = op ∧ t.arg = arg ∧ t.pending = rest)) ∧
  (∀ (s : State) (bytes : List Byte) (rest : List PortWord), s.pending = ⟨.bus, bytes⟩ :: rest →
    s.reqValid = false ∧ s.reqOp = none ∧ s.reqArg = none) ∧
  (∀ s t : State, s.Inv → step s = .next t → t.rspValid = true →
    t.reqReady = true ∧ t.rspStatus.toNat ≤ 5 ∧
    (t.rspStatus = 0b010#3 → t.op = 0#3 ∧ t.cfg.variant = .B) ∧
    (t.rspStatus = 0b011#3 → t.op = 1#3) ∧
    (t.rspStatus = 0b100#3 → t.op = 2#3 ∨ t.op = 3#3) ∧
    (t.rspStatus = 0b101#3 ↔ t.op = 7#3 ∨ terminalOp t.op = true ∧ t.cfg.variant = .A))

/-- The transport port as signals (41_sequencer.md sections 1 and 2; D4, D7): which primitive the block asks for at each step of its
operation, by its number, with the byte to write: the command byte of the operation, then the dummy byte for RDW and the data
byte for the others; nothing is asked for at IDLE and at CHECK. -/
def Obligations.TransportPortSignalsShowThePrimitive : Prop :=
  ∀ s : State, s.Inv →
    (s.tReq = s.sq.pastCheck) ∧
    (s.sq = .select → s.asking.map Prim.kind = some 0b00#2) ∧
    (s.sq = .finish → s.asking.map Prim.kind = some 0b01#2) ∧
    (s.sq = .b0 → s.asking.map Prim.kind = some 0b10#2 ∧ s.asking.bind Prim.wdata = operationByte s.cfg s.op) ∧
    (s.sq = .b1 → s.asking.map Prim.kind = some 0b10#2 ∧
      s.asking.bind Prim.wdata = some (if s.op = 1#3 then s.cfg.dummyByte else s.d)) ∧
    (s.sq = .b2 ∨ s.sq = .b3 → s.op = 1#3 ∧ s.asking.map Prim.kind = some 0b11#2) ∧
    (s.sq ≠ .b0 → s.sq ≠ .b1 → s.asking.bind Prim.wdata = none)

/-! ### The block with the reference peer (a test double, D22) -/

/-- The round trip through the reference peer (20_memory.md section 6, D22): after WRW of a value in [0, 128] with status OK,
an RDW that goes through returns it with status OK. -/
def Obligations.WriteThenReadReturnsTheValue : Prop :=
  ∀ (v x : Byte) (s t : State), s.cfg.wf → s.link = .reference → s.sq = .idle → v.toNat ≤ 128 →
    exec (.wrw v) s = .next t → t.sq = .idle → t.status = .ok → t.Lucky 6 →
      ∃ u, exec (.rdw x) t = .next u ∧ u.sq = .idle ∧ u.status = .ok ∧ u.rdata = v

/-- Shadow and reference peer stay in agreement (20_memory.md section 6, D22): across each wiper operation when no primitive
fails, the bounds included; and when the data byte of a WRW fails both keep the old value. -/
def Obligations.ShadowAndPeerStayInAgreement : Prop :=
  ∀ (v : Byte) (s t : State), s.cfg.wf → s.link = .reference → s.sq = .idle → s.w0.toNat ≤ 128 →
    s.peer.get s.cfg.addrWiper0 = s.w0 →
    (s.Lucky 6 → ∀ i, i ∈ [Instr.wrw v, .rdw v, .inc v, .dec v] → exec i s = .next t →
      t.peer.get s.cfg.addrWiper0 = t.w0) ∧
    (s.Lucky 6 → s.w0 = 128#8 → exec (.inc v) s = .next t → t.w0 = 128#8 ∧ t.peer.get s.cfg.addrWiper0 = 128#8) ∧
    (s.Lucky 6 → s.w0 = 0#8 → exec (.dec v) s = .next t → t.w0 = 0#8 ∧ t.peer.get s.cfg.addrWiper0 = 0#8) ∧
    (s.Lucky 2 → s.Prompt 4 → (s.answerAt 2).ok = false → exec (.wrw v) s = .next t →
      t.w0 = s.w0 ∧ t.peer.get s.cfg.addrWiper0 = s.w0)

/-- Stepping at the bound is decided on the shadow (70_reset_and_hazards.md section 3, with the reference peer, D22): at 128 INC
still steps a device that is below, and below 128 INC moves the shadow past a device at its top; DEC likewise at 0. -/
def Obligations.StepAtTheBoundIsDecidedOnTheShadow : Prop :=
  ∀ (x : Byte) (s : State), s.cfg.wf → s.link = .reference → s.sq = .idle → s.Lucky 3 →
    (s.w0 = 128#8 → (s.peer.get s.cfg.addrWiper0).toNat < 128 →
      ∃ t, exec (.inc x) s = .next t ∧ t.status = .alreadyAtBound ∧ t.w0 = 128#8 ∧
        t.peer.get s.cfg.addrWiper0 = s.peer.get s.cfg.addrWiper0 + 1#8) ∧
    (s.w0.toNat < 128 → s.peer.get s.cfg.addrWiper0 = 128#8 →
      ∃ t, exec (.inc x) s = .next t ∧ t.status = .ok ∧ t.w0 = s.w0 + 1#8 ∧ t.peer.get s.cfg.addrWiper0 = 128#8) ∧
    (s.w0 = 0#8 → 0 < (s.peer.get s.cfg.addrWiper0).toNat →
      ∃ t, exec (.dec x) s = .next t ∧ t.status = .alreadyAtBound ∧ t.w0 = 0#8 ∧
        t.peer.get s.cfg.addrWiper0 = s.peer.get s.cfg.addrWiper0 - 1#8) ∧
    (0 < s.w0.toNat → s.peer.get s.cfg.addrWiper0 = 0#8 →
      ∃ t, exec (.dec x) s = .next t ∧ t.status = .ok ∧ t.w0 = s.w0 - 1#8 ∧ t.peer.get s.cfg.addrWiper0 = 0#8)

/-! ### The documented host -/

/-- `speed_to_wiper` (47_host_fan_adapter.md section 4): its three branches in order, its range, and that WRW of its result never raises
RangeViolation. That it is asked for a speed count of 0 or less at all is the model's choice (entry 23). -/
def Obligations.SpeedToWiperStaysInRange : Prop :=
  ∀ level count : Int,
    (level ≤ 0 → speedToWiper level count = 0) ∧
    (0 < level → count ≤ level → speedToWiper level count = 128) ∧
    (0 < level → level < count →
      2 ≤ count ∧ (speedToWiper level count : Int) = max 1 (level * 128 / count) ∧
      (level * 128 / count = 0 ↔ level * 128 < count) ∧
      1 ≤ speedToWiper level count ∧ speedToWiper level count ≤ 127) ∧
    speedToWiper level count ≤ 128 ∧
    ∀ s t : State, s.sq = .idle → exec (.wrw (BitVec.ofNat 8 (speedToWiper level count))) s = .next t → t.sq = .idle →
      t.status ≠ .rangeViolation

/-- Creation (47_host_fan_adapter.md section 2; what it holds before setup, entry 23): the adapter owns a block of the build just
reset, is off and healthy, has written and published nothing, and has the given number of speeds, which no step of it changes,
nor the block it owns; an ill-formed build makes no adapter. That a count of 0 or less makes one too is the model's choice
(entry 23).
The reset input of the block is not looked at (entry 24). -/
def Obligations.FanIsCreatedWithAFixedSpeedCount : Prop :=
  (∀ (c : Config) (n : Int), c.wf → ∃ r, Rig.create c n = .next r ∧ r.dpc = State.powerOn c ∧ r.fan.speedCount = n ∧
    r.fan.on = false ∧ r.fan.failed = false ∧ r.fan.cachedWiper = none ∧ r.fan.published = [] ∧ r.fan.setUp = false ∧
    r.fan.task = .ready) ∧
  (∀ (c : Config) (n : Int), ¬ c.wf → Rig.create c n = .refused .illFormedConfig) ∧
  (∀ r r' : Rig, r.step = .next r' → r'.fan.speedCount = r.fan.speedCount ∧ r'.dpc.cfg = r.dpc.cfg)

/-- Setup of the documented host (47_host_fan_adapter.md section 3), when the transport confirms every frame: `W[0] = 0`
whatever it was, the terminals disconnected in variant B, the adapter off, its cached value 0 and no more failed than before; at
once, or, where the transport kept WRW 0 or DIST waiting (entry 8), when the adapter takes it up again. And the cached value, the
last value written successfully (section 2), whatever the transport does: it is 0 as soon as WRW 0 has come to OK, at once or in a
later step, also where DIST waits or fails; it stands while WRW 0 waits, where WRW 0 fails, and when DIST is taken up. So an
adapter that waits for DIST after a WRW 0 that went well holds 0: so from its creation, and every step keeps it so.
The reset input of the block is not looked at (entry 24). -/
def Obligations.FanSetupLeavesTheFanOff : Prop :=
  (∀ r : Rig, r.dpc.cfg.wf → r.dpc.sq = .idle → r.dpc.sel = false → r.fan.setUp = false → r.dpc.Lucky 8 →
    ∃ r', r.setup = .next r' ∧ r.WellSetUp r') ∧
  (∀ r : Rig, r.Awaits .setupWiper 0#3 → r.dpc.arg = 0#8 → r.fan.setUp = true → r.dpc.Lucky 8 →
    ∃ r', r.step = .next r' ∧ r.WellSetUp r') ∧
  (∀ r : Rig, r.Awaits (.setupTerminals .ok) 6#3 → r.dpc.cfg.variant = .B → r.dpc.w0 = 0#8 → r.fan.setUp = true →
    r.fan.Current → r.dpc.Lucky 4 →
    ∃ r', r.step = .next r' ∧ r.WellSetUp r') ∧
  (∀ (r r' : Rig) (s : State), r.setup = .next r' → exec (.wrw 0#8) r.dpc = .next s →
    r'.fan.cachedWiper = if s.sq = .idle ∧ s.status = .ok then some 0#8 else r.fan.cachedWiper) ∧
  (∀ r r' : Rig, r.step = .next r' → r.fan.task = .setupWiper →
    r'.fan.cachedWiper = if r.dpc.resume.sq = .idle ∧ r.dpc.resume.status = .ok then some 0#8 else r.fan.cachedWiper) ∧
  (∀ (r r' : Rig) (w : Status), r.step = .next r' → r.fan.task = .setupTerminals w →
    r'.fan.cachedWiper = r.fan.cachedWiper) ∧
  (∀ (c : Config) (n : Int) (r : Rig), Rig.create c n = .next r → r.fan.Current) ∧
  (∀ r r' : Rig, r.step = .next r' → r.fan.Current → r'.fan.Current)

/-- The host waits for its block (47_host_fan_adapter.md section 1; D25): while the operation it issued has no result it does
nothing else, and every call ends when the transport completes its primitives, as does one that was left waiting (entry 8). That
an on/off request is served in variant A as well is the model's choice (entry 20).
The reset input of the block is not looked at (entry 24). -/
def Obligations.FanWaitsForItsBlock : Prop :=
  (∀ r : Rig, r.fan.task ≠ .ready → r.dpc.resume.sq ≠ .idle → r.step = .next { r with dpc := r.dpc.resume }) ∧
  (∀ r : Rig, r.dpc.Inv → r.fan.task ≠ .ready → r.dpc.Prompt 10 →
    ∃ r', r.step = .next r' ∧ r'.fan.task = .ready ∧ r'.dpc.sq = .idle ∧ r'.calls = r.calls) ∧
  (∀ (r : Rig) (rest : List Call), r.dpc.Inv → r.dpc.sq = .idle → r.fan.task = .ready → r.fan.setUp = false →
    r.calls = .setup :: rest → r.dpc.Prompt 8 →
    ∃ r', r.step = .next r' ∧ r'.fan.task = .ready ∧ r'.dpc.sq = .idle ∧ r'.calls = rest) ∧
  (∀ (r : Rig) (q : ControlRequest) (rest : List Call), r.dpc.Inv → r.dpc.sq = .idle → r.fan.healthy →
    r.calls = .control q :: rest → r.dpc.Prompt 8 →
    ∃ r', r.step = .next r' ∧ r'.fan.task = .ready ∧ r'.dpc.sq = .idle ∧ r'.calls = rest)

/-- The failed flag of the documented host (47_host_fan_adapter.md section 2): set when either bus call of setup fails, whether its
result comes at once or in a later step (entry 8), never cleared, set by no control request, shown by the dump.
The reset input of the block is not looked at (entry 24). -/
def Obligations.FanFailedFlagStands : Prop :=
  (∀ r r' : Rig, r.step = .next r' → r.fan.doomed = true → r'.fan.doomed = true) ∧
  (∀ r r' : Rig, r.step = .next r' → r.fan.failed = true → r'.fan.failed = true) ∧
  (∀ (r r' : Rig) (s : State), r.setup = .next r' → exec (.wrw 0#8) r.dpc = .next s → s.sq = .idle → s.status ≠ .ok →
    r'.fan.doomed = true) ∧
  (∀ r r' : Rig, r.step = .next r' → r.fan.task = .setupWiper → r.dpc.resume.sq = .idle → r.dpc.resume.status ≠ .ok →
    r'.fan.doomed = true) ∧
  (∀ (r r' : Rig) (s u : State), r.setup = .next r' → r.dpc.cfg.variant = .B → exec (.wrw 0#8) r.dpc = .next s → s.sq = .idle →
    exec (.dist 0#8) s = .next u → u.sq = .idle → u.status ≠ .ok → r'.fan.failed = true) ∧
  (∀ (r r' : Rig) (u : State), r.step = .next r' → r.fan.task = .setupWiper → r.dpc.cfg.variant = .B →
    r.dpc.resume.sq = .idle → exec (.dist 0#8) r.dpc.resume = .next u → u.sq = .idle → u.status ≠ .ok →
    r'.fan.failed = true) ∧
  (∀ (r r' : Rig) (w : Status), r.step = .next r' → r.fan.task = .setupTerminals w → r.dpc.resume.sq = .idle →
    r.dpc.resume.status ≠ .ok → r'.fan.failed = true) ∧
  (∀ r r' : Rig, r.step = .next r' → r.inControl = true → r'.fan.failed = r.fan.failed) ∧
  (∀ r : Rig, r.dumpConfig.2.2 = r.fan.failed)

/-- What the documented host refuses (47_host_fan_adapter.md sections 1 and 2), each where the document gives no meaning: a control
request to a failed adapter is the model's choice of entry 20, a control request before setup and a second setup are the
model's choice of entry 23. A healthy adapter that has been set up refuses no request.
The reset input of the block is not looked at (entry 24). -/
def Obligations.FanRefusals : Prop :=
  ∀ (r : Rig) (q : ControlRequest),
    (r.fan.setUp = true → r.fan.failed = true → r.control q = .refused .adapterFailed) ∧
    (r.fan.setUp = false → r.control q = .refused .notSetUp) ∧
    (r.fan.setUp = true → r.setup = .refused .setupAgain) ∧
    (r.fan.healthy → ∃ r', r.control q = .next r') ∧
    (r.fan.setUp = false → ∃ r', r.setup = .next r')

/-- The on/off part of a control request (47_host_fan_adapter.md section 4; D5, D11): On is ENT, Off is DIST. Where the transport
confirms the frame, in variant B, `on` takes the requested value and `TC` the three terminals, and the adapter publishes. Whatever
the transport does, `on` moves only when the operation has come to OK, at once or in a later step (entry 8). In variant A the
adapter issues ENT or DIST too and takes Unsupported for its result, so that `on` keeps its value: what the second and third clauses
say there is the model's choice (entry 20; N24 and U25 leave it open).
The reset input of the block is not looked at (entry 24). -/
def Obligations.FanSwitchPart : Prop :=
  (∀ (r : Rig) (v : Bool), r.dpc.cfg.wf → r.dpc.cfg.variant = .B → r.dpc.sq = .idle → r.fan.healthy → r.dpc.Lucky 4 →
    ∃ r', r.control ⟨some v, none⟩ = .next r' ∧
      r'.fan = { r.fan with on := v, published := r.fan.published ++ [(v, r.fan.speedLevel)] } ∧ r'.calls = r.calls ∧
      TerminalWritten r.dpc (if v then 5#3 else 6#3) 0#8 ⟨v, v, v⟩ (if v then 0xFF#8 else 0xF1#8) (.next r'.dpc)) ∧
  (∀ (r r' : Rig) (v : Bool) (speed : Option Int) (u : State), r.startSwitch (some v) speed = .next r' →
    exec (if v then .ent 0#8 else .dist 0#8) r.dpc = .next u →
    (u.sq = .idle → r'.fan.on = if u.status = .ok then v else r.fan.on) ∧
    (u.sq ≠ .idle → r' = { r with dpc := u, fan := { r.fan with task := .switching v speed } })) ∧
  (∀ (r r' : Rig) (v : Bool) (speed : Option Int), r.step = .next r' → r.fan.task = .switching v speed →
    (r.dpc.resume.sq = .idle → r'.fan.on = if r.dpc.resume.status = .ok then v else r.fan.on) ∧
    (r.dpc.resume.sq ≠ .idle → r'.fan = r.fan))

/-- The speed part of a control request (47_host_fan_adapter.md section 4): WRW of the converted level; the recorded level and the
cached value move only on success, when its result is there, at once or in a later step (entry 8), and nothing else of the
adapter moves but the publication. And of whole requests, where the transport confirms every frame: with a speed alone, the on/off
state is left unchanged; with both parts, in variant B, both move, whether the terminal write has its result at once or in a
later step; with neither, nothing is left but the publication. An adapter with a speed count of 0 or less serves these requests like
any other, which is the model's choice (entry 23).
The reset input of the block is not looked at (entry 24). -/
def Obligations.FanSpeedPart : Prop :=
  (∀ (r r' : Rig) (level : Int), r.startSpeed (some level) = .next r' →
    exec (.wrw (BitVec.ofNat 8 (speedToWiper level r.fan.speedCount))) r.dpc = .next r'.dpc ∧
    (r'.dpc.sq ≠ .idle → r'.fan = { r.fan with task := .speeding level }) ∧
    (r'.dpc.sq = .idle → r'.dpc.status = .ok →
      r'.fan = { r.fan with
        speedLevel := level, cachedWiper := some (BitVec.ofNat 8 (speedToWiper level r.fan.speedCount)), task := .ready,
        published := r.fan.published ++ [(r.fan.on, level)] }) ∧
    (r'.dpc.sq = .idle → r'.dpc.status ≠ .ok →
      r'.fan = { r.fan with task := .ready, published := r.fan.published ++ [(r.fan.on, r.fan.speedLevel)] })) ∧
  (∀ (r r' : Rig) (level : Int), r.step = .next r' → r.fan.task = .speeding level →
    r'.dpc = r.dpc.resume ∧
    (r'.dpc.sq ≠ .idle → r'.fan = r.fan) ∧
    (r'.dpc.sq = .idle → r'.dpc.status = .ok →
      r'.fan = { r.fan with
        speedLevel := level, cachedWiper := some (BitVec.ofNat 8 (speedToWiper level r.fan.speedCount)), task := .ready,
        published := r.fan.published ++ [(r.fan.on, level)] }) ∧
    (r'.dpc.sq = .idle → r'.dpc.status ≠ .ok →
      r'.fan = { r.fan with task := .ready, published := r.fan.published ++ [(r.fan.on, r.fan.speedLevel)] })) ∧
  (∀ (r : Rig) (level : Int), r.dpc.cfg.wf → r.dpc.sq = .idle → r.fan.healthy → r.dpc.Lucky 4 →
    ∃ r', r.control ⟨none, some level⟩ = .next r' ∧ r.SpeedSet r.fan.on level r' ∧ r'.dpc.tc = r.dpc.tc) ∧
  (∀ (r : Rig) (v : Bool) (level : Int), r.dpc.cfg.wf → r.dpc.cfg.variant = .B → r.dpc.sq = .idle → r.fan.healthy →
    r.dpc.Lucky 8 →
    ∃ r', r.control ⟨some v, some level⟩ = .next r' ∧ r.SpeedSet v level r' ∧ r'.dpc.tc = some ⟨v, v, v⟩) ∧
  (∀ (r : Rig) (v : Bool) (level : Int), r.Awaits (.switching v (some level)) (if v then 5#3 else 6#3) →
    r.dpc.cfg.variant = .B → r.dpc.Lucky 8 →
    ∃ r', r.step = .next r' ∧ r.SpeedSet v level r' ∧ r'.dpc.tc = some ⟨v, v, v⟩) ∧
  (∀ r : Rig, r.fan.healthy →
    r.control ⟨none, none⟩ =
      .next { r with fan := { r.fan with published := r.fan.published ++ [(r.fan.on, r.fan.speedLevel)] } })

/-- Publication (47_host_fan_adapter.md section 4): a control request publishes the on/off flag and the speed level as they stand
after it, once, in the step that ends it, which may be a later one (entry 8), whatever came of its two parts; no other step
publishes. That an on/off request is served in variant A as well is the model's choice (entry 20).
The reset input of the block is not looked at (entry 24). -/
def Obligations.FanPublishesItsState : Prop :=
  ∀ r r' : Rig, r.step = .next r' →
    (r.inControl = true → r'.fan.task = .ready →
      r'.fan.published = r.fan.published ++ [(r'.fan.on, r'.fan.speedLevel)]) ∧
    (r.inControl = true → r'.fan.task ≠ .ready → r'.fan.published = r.fan.published) ∧
    (r.inControl = false → r'.fan.published = r.fan.published)

/-- The halves of a control request are independent, one direction (47_host_fan_adapter.md section 4), in variant B: when a byte of
the terminal write fails, the first or the second, and the speed write goes through, `on` and `TC` keep their values, the speed,
the cached value and `W[0]` move, and the adapter's state is published.
The reset input of the block is not looked at (entry 24). -/
def Obligations.FanSpeedMovesWhenTheTerminalWriteFails : Prop :=
  ∀ (r : Rig) (v : Bool) (level : Int) (f : Nat), r.dpc.cfg.wf → r.dpc.cfg.variant = .B → r.dpc.sq = .idle → r.fan.healthy →
    (f = 1 ∨ f = 2) → r.dpc.Prompt 8 → (r.dpc.answerAt f).ok = false →
    (∀ k, k < 8 → k ≠ f → (r.dpc.answerAt k).ok = true) →
      ∃ r', r.control ⟨some v, some level⟩ = .next r' ∧
        r'.fan.on = r.fan.on ∧ r'.fan.speedLevel = level ∧
        r'.fan.cachedWiper = some (BitVec.ofNat 8 (speedToWiper level r.fan.speedCount)) ∧
        r'.dpc.w0.toNat = speedToWiper level r.fan.speedCount ∧ r'.dpc.tc = r.dpc.tc ∧
        r'.fan.published = r.fan.published ++ [(r.fan.on, level)]

/-- The halves of a control request are independent, the other direction (47_host_fan_adapter.md section 4), in variant B: when the
terminal write goes through and a byte of the speed write fails, the first or the second, `on` and `TC` move, the speed, the
cached value and `W[0]` keep their values, and the adapter's state is published.
The reset input of the block is not looked at (entry 24). -/
def Obligations.FanOnMovesWhenTheSpeedWriteFails : Prop :=
  ∀ (r : Rig) (v : Bool) (level : Int) (f : Nat), r.dpc.cfg.wf → r.dpc.cfg.variant = .B → r.dpc.sq = .idle → r.fan.healthy →
    (f = 5 ∨ f = 6) → r.dpc.Prompt 8 → (r.dpc.answerAt f).ok = false →
    (∀ k, k < 8 → k ≠ f → (r.dpc.answerAt k).ok = true) →
      ∃ r', r.control ⟨some v, some level⟩ = .next r' ∧
        r'.fan.on = v ∧ r'.fan.speedLevel = r.fan.speedLevel ∧ r'.fan.cachedWiper = r.fan.cachedWiper ∧
        r'.dpc.w0 = r.dpc.w0 ∧ r'.dpc.tc = some ⟨v, v, v⟩ ∧
        r'.fan.published = r.fan.published ++ [(v, r.fan.speedLevel)]
end

