-- ==== Sys2Proof/Laws/Encoding.lean ====
section
/-! SUPPORT. The fields of a command byte (spec/30_encoding.md R50). -/

namespace Sys2Proof

theorem preShift_masked (code : BitVec 2) : preShift code &&& 0x0C#8 = preShift code := by
  revert code; decide

/-- A command byte is its three fields side by side (R50, R70). -/
theorem busByte_eq (addr : RegAddr) (code dx : BitVec 2) : busByte addr code dx = addr ++ code ++ dx := by
  revert addr code dx; decide

@[simp] theorem addrField_busByte (addr : RegAddr) (code dx : BitVec 2) : addrField (busByte addr code dx) = addr := by
  revert addr code dx; decide

@[simp] theorem cmdField_busByte (addr : RegAddr) (code dx : BitVec 2) : cmdField (busByte addr code dx) = code := by
  revert addr code dx; decide

@[simp] theorem dxField_busByte (addr : RegAddr) (code dx : BitVec 2) : dxField (busByte addr code dx) = dx := by
  revert addr code dx; decide

/-- A byte is the command byte of its fields. -/
theorem busByte_fields (b : Byte) : busByte (addrField b) (cmdField b) (dxField b) = b := by
  revert b; decide

/-- Two command bytes are equal exactly when their fields are. -/
theorem busByte_inj {a a' : RegAddr} {k k' x x' : BitVec 2} :
    busByte a k x = busByte a' k' x' ↔ a = a' ∧ k = k' ∧ x = x' := by
  constructor
  · intro h
    refine ⟨?_, ?_, ?_⟩
    · simpa using congrArg addrField h
    · simpa using congrArg cmdField h
    · simpa using congrArg dxField h
  · rintro ⟨rfl, rfl, rfl⟩; rfl

/-- The codes of a well-formed build are distinct (R51). -/
theorem Config.wf_codes {c : Config} (h : c.wf) :
    c.cmdWrite ≠ c.cmdIncrement ∧ c.cmdWrite ≠ c.cmdDecrement ∧ c.cmdWrite ≠ c.cmdRead ∧
    c.cmdIncrement ≠ c.cmdDecrement ∧ c.cmdIncrement ≠ c.cmdRead ∧ c.cmdDecrement ≠ c.cmdRead := by
  have := h.2.2
  simp only [Config.codes, List.nodup_cons, List.mem_cons, List.not_mem_nil, or_false, not_or] at this
  tauto

/-- Wiper0 and TerminalControl have distinct addresses in a well-formed build (R31). -/
theorem Config.wf_addresses {c : Config} (h : c.wf) : c.addrWiper0 ≠ c.addrTcon := by
  have := h.2.1
  simp only [Config.addresses, List.nodup_cons, List.mem_cons, List.not_mem_nil, or_false, not_or] at this
  tauto

/-- Every code is one of the four of a well-formed build. -/
theorem Config.wf_cover {c : Config} (h : c.wf) (k : BitVec 2) :
    k = c.cmdWrite ∨ k = c.cmdIncrement ∨ k = c.cmdDecrement ∨ k = c.cmdRead := by
  obtain ⟨h1, h2, h3, h4, h5, h6⟩ := Config.wf_codes h
  generalize c.cmdWrite = w at *
  generalize c.cmdIncrement = i at *
  generalize c.cmdDecrement = d at *
  generalize c.cmdRead = r at *
  revert k w i d r; decide

end Sys2Proof
end

