-- ==== Sys2Proof/Laws/Memory.lean ====
section
/-! SUPPORT. The device register space: read after write, and the canonical form is kept. -/

namespace Sys2Proof.Machine

/-- A read after a write: the value written at that address, the old content elsewhere. -/
theorem Memory.read_write (m : Memory) (a k : Nat) (v : Byte) :
    Memory.read (Memory.write m a v) k = if k = a then some v else Memory.read m k := by
  induction m with
  | nil => simp [Memory.write, Memory.read]
  | cons cell rest ih =>
    obtain ⟨j, u⟩ := cell
    simp only [Memory.write]
    split
    · simp [Memory.read]
    · split
      · subst_vars; simp only [Memory.read]; split <;> simp_all
      · simp only [Memory.read, ih]
        split
        · split
          · omega
          · rfl
        · rfl

@[simp] theorem Memory.read_write_same (m : Memory) (a : Nat) (v : Byte) :
    Memory.read (Memory.write m a v) a = some v := by simp [Memory.read_write]

/-- The cells of a written memory: the new one or old ones. -/
theorem Memory.mem_write {m : Memory} {a : Nat} {v : Byte} {cell : Host.Cell}
    (h : cell ∈ Memory.write m a v) : cell = (a, v) ∨ cell ∈ m := by
  induction m with
  | nil => simpa [Memory.write] using h
  | cons c rest ih =>
    obtain ⟨j, u⟩ := c
    simp only [Memory.write] at h
    split at h
    · simpa using h
    · split at h
      · subst_vars; simp only [List.mem_cons] at h ⊢; tauto
      · simp only [List.mem_cons] at h ⊢
        rcases h with h | h
        · tauto
        · rcases ih h with h | h <;> tauto

/-- A write to an address of the register space keeps the canonical form. -/
theorem Memory.wf_write {m : Memory} (hm : Memory.wf m) {a : Nat} (ha : a < 16) (v : Byte) :
    Memory.wf (Memory.write m a v) := by
  obtain ⟨hp, hlt⟩ := hm
  refine ⟨?_, fun cell h => ?_⟩
  · clear hlt ha
    induction m with
    | nil => simp [Memory.write]
    | cons c rest ih =>
      obtain ⟨j, u⟩ := c
      simp only [List.pairwise_cons] at hp
      simp only [Memory.write]
      split
      · rename_i h
        simp only [List.pairwise_cons, List.mem_cons]
        refine ⟨?_, hp.1, hp.2⟩
        rintro x (rfl | hx)
        · exact h
        · exact lt_trans h (hp.1 x hx)
      · split
        · simp only [List.pairwise_cons]; exact ⟨hp.1, hp.2⟩
        · simp only [List.pairwise_cons]
          refine ⟨fun x hx => ?_, ih hp.2⟩
          rcases Memory.mem_write hx with rfl | hx
          · show j < a; omega
          · exact hp.1 x hx
  · rcases Memory.mem_write h with rfl | h
    · exact ha
    · exact hlt cell h

theorem Memory.wf_nil : Memory.wf [] := by simp [Memory.wf]

end Sys2Proof.Machine
end

