-- ==== Sys2Proof/Laws/Peer.lean ====
section
/-! SUPPORT. The reference peer: its registers, and what each whole frame does to it (spec/20_memory.md R44 to R47). -/

namespace Sys2Proof.Machine

variable (p : Peer) (c : Config)

@[simp] theorem get_put_same (a : RegAddr) (v : Byte) : (p.put a v).get a = v := by
  simp [Peer.get, Peer.put]

theorem read_put (a : RegAddr) (v : Byte) (k : Nat) :
    Memory.read (p.put a v).dev k = if k = a.toNat then some v else Memory.read p.dev k := by
  simp [Peer.put, Memory.read_write]

theorem get_congr {p q : Peer} (h : p.dev = q.dev) (a : RegAddr) : p.get a = q.get a := by
  simp [Peer.get, h]

@[simp] theorem select_dev : p.select.dev = p.dev := rfl
@[simp] theorem select_pcnt : p.select.pcnt = 0 := rfl
@[simp] theorem select_prd : p.select.prd = 0 := rfl
@[simp] theorem select_get (a : RegAddr) : p.select.get a = p.get a := rfl
@[simp] theorem deselect_dev : p.deselect.dev = p.dev := rfl
@[simp] theorem deselect_get (a : RegAddr) : p.deselect.get a = p.get a := rfl
@[simp] theorem put_pcnt (a : RegAddr) (v : Byte) : (p.put a v).pcnt = p.pcnt := rfl
@[simp] theorem put_prd (a : RegAddr) (v : Byte) : (p.put a v).prd = p.prd := rfl
@[simp] theorem put_pcmd (a : RegAddr) (v : Byte) : (p.put a v).pcmd = p.pcmd := rfl
@[simp] theorem afterRead_dev : (p.afterRead c).dev = p.dev := by unfold Peer.afterRead; split <;> rfl
@[simp] theorem afterRead_pcmd : (p.afterRead c).pcmd = p.pcmd := by unfold Peer.afterRead; split <;> rfl
@[simp] theorem afterRead_pcnt : (p.afterRead c).pcnt = p.pcnt := by unfold Peer.afterRead; split <;> rfl
@[simp] theorem afterRead_get (a : RegAddr) : (p.afterRead c).get a = p.get a := get_congr (by simp) a

/-- What the command byte leaves behind in a fresh bracket (R45). -/
theorem write_first (b : Byte) (h : p.pcnt = 0) :
    p.write c b = { Peer.command c b p with pcmd := b, pcnt := 1 } := by
  simp [Peer.write, h]

/-- What the second byte does (R46). -/
theorem write_second (b : Byte) (h : p.pcnt = 1) :
    p.write c b = { (if cmdField p.pcmd = c.cmdWrite then p.put (addrField p.pcmd) b else p) with pcnt := 2 } := by
  simp [Peer.write, h]

variable {c}

/-- An Increment command byte steps its register up inside the device's bound (R45). -/
theorem command_increment (addr : RegAddr) (dx : BitVec 2) :
    Peer.command c (busByte addr c.cmdIncrement dx) p =
      if p.get addr < wiperMax then p.put addr (p.get addr + 1#8) else p := by
  simp [Peer.command]

/-- A Decrement command byte steps its register down inside the device's bound (R45). -/
theorem command_decrement (hc : c.wf) (addr : RegAddr) (dx : BitVec 2) :
    Peer.command c (busByte addr c.cmdDecrement dx) p =
      if wiperMin < p.get addr then p.put addr (p.get addr - 1#8) else p := by
  have h := Config.wf_codes hc
  rw [Peer.command, cmdField_busByte, if_neg h.2.2.2.1.symm, if_pos rfl, addrField_busByte]

/-- Write and Read command bytes change no register (R45). -/
theorem command_other {b : Byte} (h1 : cmdField b ≠ c.cmdIncrement) (h2 : cmdField b ≠ c.cmdDecrement) :
    Peer.command c b p = p := by
  simp [Peer.command, h1, h2]

/-- A whole Write frame stores its data byte at its register (R42, R45, R46). -/
theorem peer_write_frame (hc : c.wf) (addr : RegAddr) (dx : BitVec 2) (v : Byte) :
    p.writeFrame c (busByte addr c.cmdWrite dx) v =
      { (p.put addr v) with psel := false, pcnt := 2, pcmd := busByte addr c.cmdWrite dx, prd := 0 } := by
  have h := Config.wf_codes hc
  rw [Peer.writeFrame, write_first p.select _ _ rfl, command_other _ (by simpa using h.1) (by simpa using h.2.1),
    write_second _ _ _ rfl]
  simp [Peer.put, Peer.select, Peer.deselect]

/-- The registers after a whole one-byte frame (R45). -/
theorem peer_increment_frame (addr : RegAddr) (dx : BitVec 2) :
    (p.stepFrame c (busByte addr c.cmdIncrement dx)).dev =
      (if p.get addr < wiperMax then p.put addr (p.get addr + 1#8) else p).dev := by
  rw [Peer.stepFrame, write_first _ _ _ rfl, command_increment]
  by_cases h : p.get addr < wiperMax <;> simp only [select_get, deselect_dev, h, if_true, if_false] <;> rfl

theorem peer_decrement_frame (hc : c.wf) (addr : RegAddr) (dx : BitVec 2) :
    (p.stepFrame c (busByte addr c.cmdDecrement dx)).dev =
      (if wiperMin < p.get addr then p.put addr (p.get addr - 1#8) else p).dev := by
  rw [Peer.stepFrame, write_first _ _ _ rfl, command_decrement _ hc]
  by_cases h : wiperMin < p.get addr <;> simp only [select_get, deselect_dev, h, if_true, if_false] <;> rfl

/-- The peer after the two written bytes of a Read frame: nothing stored, ready to answer (R45, R46). -/
theorem peer_read_written (hc : c.wf) (addr : RegAddr) (dx : BitVec 2) :
    p.asked c (busByte addr c.cmdRead dx) =
      { p.select with pcmd := busByte addr c.cmdRead dx, pcnt := 2 } := by
  have h := Config.wf_codes hc
  rw [Peer.asked, write_first p.select _ _ rfl, command_other _ (by simpa using h.2.2.2.2.1.symm) (by simpa using h.2.2.2.2.2.symm),
    write_second _ _ _ rfl]
  simp [h.2.2.1.symm]

/-- A whole Read frame changes no register (R45 to R47). -/
theorem peer_read_frame (hc : c.wf) (addr : RegAddr) (dx : BitVec 2) :
    (p.readFrame c (busByte addr c.cmdRead dx)).dev = p.dev := by
  simp [Peer.readFrame, peer_read_written p hc]

/-- What the peer drives in a whole Read frame: zero, then the register (R47). -/
theorem peer_read_response (hc : c.wf) (addr : RegAddr) (dx : BitVec 2) :
    p.response c (busByte addr c.cmdRead dx) = [0x00#8, p.get addr] := by
  rw [Peer.response, peer_read_written p hc]
  simp [Peer.readByte, Peer.afterRead, Peer.select, Peer.get]

/-- A write to the peer keeps the canonical form of its registers. -/
theorem put_wf (h : Memory.wf p.dev) (a : RegAddr) (v : Byte) : Memory.wf (p.put a v).dev :=
  Memory.wf_write h a.isLt v

theorem write_wf (h : Memory.wf p.dev) (b : Byte) : Memory.wf (p.write c b).dev := by
  unfold Peer.write Peer.command
  split_ifs <;> first | exact h | exact put_wf p h _ _

end Sys2Proof.Machine
end

