-- ==== Sys2Proof/Laws/State.lean ====
section
/-! SUPPORT. One lemma for each field of State under each update, so that no proof unfolds a record update. -/

namespace Sys2Proof.Machine

variable (s : State)

theorem raise_eq (k : Status) : s.raise k = s.respond k := rfl

@[simp] theorem consume_cfg : (s.consume).cfg = s.cfg := rfl
@[simp] theorem consume_w0 : (s.consume).w0 = s.w0 := rfl
@[simp] theorem consume_tc : (s.consume).tc = s.tc := rfl
@[simp] theorem consume_sq : (s.consume).sq = s.sq := rfl
@[simp] theorem consume_op : (s.consume).op = s.op := rfl
@[simp] theorem consume_arg : (s.consume).arg = s.arg := rfl
@[simp] theorem consume_d : (s.consume).d = s.d := rfl
@[simp] theorem consume_hi : (s.consume).hi = s.hi := rfl
@[simp] theorem consume_lo : (s.consume).lo = s.lo := rfl
@[simp] theorem consume_fail : (s.consume).fail = s.fail := rfl
@[simp] theorem consume_sel : (s.consume).sel = s.sel := rfl
@[simp] theorem consume_status : (s.consume).status = s.status := rfl
@[simp] theorem consume_rdata : (s.consume).rdata = s.rdata := rfl
@[simp] theorem consume_rspValid : (s.consume).rspValid = s.rspValid := rfl
@[simp] theorem consume_rst : (s.consume).rst = s.rst := rfl
@[simp] theorem consume_pending : (s.consume).pending = s.pending := rfl
@[simp] theorem consume_tin : (s.consume).tin = s.tin.tail := rfl
@[simp] theorem consume_link : (s.consume).link = s.link := rfl
@[simp] theorem consume_peer : (s.consume).peer = s.peer := rfl
@[simp] theorem consume_reply : (s.consume).reply = s.reply := rfl
@[simp] theorem consume_tick : (s.consume).tick = s.tick + 1 := rfl
@[simp] theorem consume_draws : (s.consume).draws = s.draws := rfl
@[simp] theorem consume_trace : (s.consume).trace = s.trace := rfl

@[simp] theorem log_cfg (e : Event) : (s.log e).cfg = s.cfg := rfl
@[simp] theorem log_w0 (e : Event) : (s.log e).w0 = s.w0 := rfl
@[simp] theorem log_tc (e : Event) : (s.log e).tc = s.tc := rfl
@[simp] theorem log_sq (e : Event) : (s.log e).sq = s.sq := rfl
@[simp] theorem log_op (e : Event) : (s.log e).op = s.op := rfl
@[simp] theorem log_arg (e : Event) : (s.log e).arg = s.arg := rfl
@[simp] theorem log_d (e : Event) : (s.log e).d = s.d := rfl
@[simp] theorem log_hi (e : Event) : (s.log e).hi = s.hi := rfl
@[simp] theorem log_lo (e : Event) : (s.log e).lo = s.lo := rfl
@[simp] theorem log_fail (e : Event) : (s.log e).fail = s.fail := rfl
@[simp] theorem log_sel (e : Event) : (s.log e).sel = s.sel := rfl
@[simp] theorem log_status (e : Event) : (s.log e).status = s.status := rfl
@[simp] theorem log_rdata (e : Event) : (s.log e).rdata = s.rdata := rfl
@[simp] theorem log_rspValid (e : Event) : (s.log e).rspValid = s.rspValid := rfl
@[simp] theorem log_rst (e : Event) : (s.log e).rst = s.rst := rfl
@[simp] theorem log_pending (e : Event) : (s.log e).pending = s.pending := rfl
@[simp] theorem log_tin (e : Event) : (s.log e).tin = s.tin := rfl
@[simp] theorem log_link (e : Event) : (s.log e).link = s.link := rfl
@[simp] theorem log_peer (e : Event) : (s.log e).peer = s.peer := rfl
@[simp] theorem log_reply (e : Event) : (s.log e).reply = s.reply := rfl
@[simp] theorem log_tick (e : Event) : (s.log e).tick = s.tick := rfl
@[simp] theorem log_draws (e : Event) : (s.log e).draws = s.draws := rfl
@[simp] theorem log_trace (e : Event) : (s.log e).trace = s.trace ++ [e] := rfl

@[simp] theorem onPeer_cfg (f : Peer → Peer) : (s.onPeer f).cfg = s.cfg := by unfold State.onPeer; split <;> rfl
@[simp] theorem onPeer_w0 (f : Peer → Peer) : (s.onPeer f).w0 = s.w0 := by unfold State.onPeer; split <;> rfl
@[simp] theorem onPeer_tc (f : Peer → Peer) : (s.onPeer f).tc = s.tc := by unfold State.onPeer; split <;> rfl
@[simp] theorem onPeer_sq (f : Peer → Peer) : (s.onPeer f).sq = s.sq := by unfold State.onPeer; split <;> rfl
@[simp] theorem onPeer_op (f : Peer → Peer) : (s.onPeer f).op = s.op := by unfold State.onPeer; split <;> rfl
@[simp] theorem onPeer_arg (f : Peer → Peer) : (s.onPeer f).arg = s.arg := by unfold State.onPeer; split <;> rfl
@[simp] theorem onPeer_d (f : Peer → Peer) : (s.onPeer f).d = s.d := by unfold State.onPeer; split <;> rfl
@[simp] theorem onPeer_hi (f : Peer → Peer) : (s.onPeer f).hi = s.hi := by unfold State.onPeer; split <;> rfl
@[simp] theorem onPeer_lo (f : Peer → Peer) : (s.onPeer f).lo = s.lo := by unfold State.onPeer; split <;> rfl
@[simp] theorem onPeer_fail (f : Peer → Peer) : (s.onPeer f).fail = s.fail := by unfold State.onPeer; split <;> rfl
@[simp] theorem onPeer_sel (f : Peer → Peer) : (s.onPeer f).sel = s.sel := by unfold State.onPeer; split <;> rfl
@[simp] theorem onPeer_status (f : Peer → Peer) : (s.onPeer f).status = s.status := by unfold State.onPeer; split <;> rfl
@[simp] theorem onPeer_rdata (f : Peer → Peer) : (s.onPeer f).rdata = s.rdata := by unfold State.onPeer; split <;> rfl
@[simp] theorem onPeer_rspValid (f : Peer → Peer) : (s.onPeer f).rspValid = s.rspValid := by unfold State.onPeer; split <;> rfl
@[simp] theorem onPeer_rst (f : Peer → Peer) : (s.onPeer f).rst = s.rst := by unfold State.onPeer; split <;> rfl
@[simp] theorem onPeer_pending (f : Peer → Peer) : (s.onPeer f).pending = s.pending := by unfold State.onPeer; split <;> rfl
@[simp] theorem onPeer_tin (f : Peer → Peer) : (s.onPeer f).tin = s.tin := by unfold State.onPeer; split <;> rfl
@[simp] theorem onPeer_link (f : Peer → Peer) : (s.onPeer f).link = s.link := by unfold State.onPeer; split <;> rfl
@[simp] theorem onPeer_peer (f : Peer → Peer) : (s.onPeer f).peer = match s.link with | .free => s.peer | .reference => f s.peer := by unfold State.onPeer; cases s.link <;> rfl
@[simp] theorem onPeer_reply (f : Peer → Peer) : (s.onPeer f).reply = s.reply := by unfold State.onPeer; split <;> rfl
@[simp] theorem onPeer_tick (f : Peer → Peer) : (s.onPeer f).tick = s.tick := by unfold State.onPeer; split <;> rfl
@[simp] theorem onPeer_draws (f : Peer → Peer) : (s.onPeer f).draws = s.draws := by unfold State.onPeer; split <;> rfl
@[simp] theorem onPeer_trace (f : Peer → Peer) : (s.onPeer f).trace = s.trace := by unfold State.onPeer; split <;> rfl

@[simp] theorem respond_cfg (st : Status) : (s.respond st).cfg = s.cfg := rfl
@[simp] theorem respond_w0 (st : Status) : (s.respond st).w0 = s.w0 := rfl
@[simp] theorem respond_tc (st : Status) : (s.respond st).tc = s.tc := rfl
@[simp] theorem respond_sq (st : Status) : (s.respond st).sq = s.sq := rfl
@[simp] theorem respond_op (st : Status) : (s.respond st).op = s.op := rfl
@[simp] theorem respond_arg (st : Status) : (s.respond st).arg = s.arg := rfl
@[simp] theorem respond_d (st : Status) : (s.respond st).d = s.d := rfl
@[simp] theorem respond_hi (st : Status) : (s.respond st).hi = s.hi := rfl
@[simp] theorem respond_lo (st : Status) : (s.respond st).lo = s.lo := rfl
@[simp] theorem respond_fail (st : Status) : (s.respond st).fail = s.fail := rfl
@[simp] theorem respond_sel (st : Status) : (s.respond st).sel = s.sel := rfl
@[simp] theorem respond_status (st : Status) : (s.respond st).status = st := rfl
@[simp] theorem respond_rdata (st : Status) : (s.respond st).rdata = Config.freeRdata s.draws := rfl
@[simp] theorem respond_rspValid (st : Status) : (s.respond st).rspValid = true := rfl
@[simp] theorem respond_rst (st : Status) : (s.respond st).rst = s.rst := rfl
@[simp] theorem respond_pending (st : Status) : (s.respond st).pending = s.pending := rfl
@[simp] theorem respond_tin (st : Status) : (s.respond st).tin = s.tin := rfl
@[simp] theorem respond_link (st : Status) : (s.respond st).link = s.link := rfl
@[simp] theorem respond_peer (st : Status) : (s.respond st).peer = s.peer := rfl
@[simp] theorem respond_reply (st : Status) : (s.respond st).reply = s.reply := rfl
@[simp] theorem respond_tick (st : Status) : (s.respond st).tick = s.tick := rfl
@[simp] theorem respond_draws (st : Status) : (s.respond st).draws = s.draws + 1 := rfl
@[simp] theorem respond_trace (st : Status) : (s.respond st).trace = s.trace := rfl

@[simp] theorem respondValue_cfg (v : Byte) : (s.respondValue v).cfg = s.cfg := rfl
@[simp] theorem respondValue_w0 (v : Byte) : (s.respondValue v).w0 = s.w0 := rfl
@[simp] theorem respondValue_tc (v : Byte) : (s.respondValue v).tc = s.tc := rfl
@[simp] theorem respondValue_sq (v : Byte) : (s.respondValue v).sq = s.sq := rfl
@[simp] theorem respondValue_op (v : Byte) : (s.respondValue v).op = s.op := rfl
@[simp] theorem respondValue_arg (v : Byte) : (s.respondValue v).arg = s.arg := rfl
@[simp] theorem respondValue_d (v : Byte) : (s.respondValue v).d = s.d := rfl
@[simp] theorem respondValue_hi (v : Byte) : (s.respondValue v).hi = s.hi := rfl
@[simp] theorem respondValue_lo (v : Byte) : (s.respondValue v).lo = s.lo := rfl
@[simp] theorem respondValue_fail (v : Byte) : (s.respondValue v).fail = s.fail := rfl
@[simp] theorem respondValue_sel (v : Byte) : (s.respondValue v).sel = s.sel := rfl
@[simp] theorem respondValue_status (v : Byte) : (s.respondValue v).status = .ok := rfl
@[simp] theorem respondValue_rdata (v : Byte) : (s.respondValue v).rdata = v := rfl
@[simp] theorem respondValue_rspValid (v : Byte) : (s.respondValue v).rspValid = true := rfl
@[simp] theorem respondValue_rst (v : Byte) : (s.respondValue v).rst = s.rst := rfl
@[simp] theorem respondValue_pending (v : Byte) : (s.respondValue v).pending = s.pending := rfl
@[simp] theorem respondValue_tin (v : Byte) : (s.respondValue v).tin = s.tin := rfl
@[simp] theorem respondValue_link (v : Byte) : (s.respondValue v).link = s.link := rfl
@[simp] theorem respondValue_peer (v : Byte) : (s.respondValue v).peer = s.peer := rfl
@[simp] theorem respondValue_reply (v : Byte) : (s.respondValue v).reply = s.reply := rfl
@[simp] theorem respondValue_tick (v : Byte) : (s.respondValue v).tick = s.tick := rfl
@[simp] theorem respondValue_draws (v : Byte) : (s.respondValue v).draws = s.draws := rfl
@[simp] theorem respondValue_trace (v : Byte) : (s.respondValue v).trace = s.trace := rfl

@[simp] theorem release_cfg : (s.release).cfg = s.cfg := rfl
@[simp] theorem release_w0 : (s.release).w0 = s.w0 := rfl
@[simp] theorem release_tc : (s.release).tc = s.tc := rfl
@[simp] theorem release_sq : (s.release).sq = .idle := rfl
@[simp] theorem release_op : (s.release).op = s.op := rfl
@[simp] theorem release_arg : (s.release).arg = s.arg := rfl
@[simp] theorem release_d : (s.release).d = s.d := rfl
@[simp] theorem release_hi : (s.release).hi = s.hi := rfl
@[simp] theorem release_lo : (s.release).lo = s.lo := rfl
@[simp] theorem release_fail : (s.release).fail = s.fail := rfl
@[simp] theorem release_sel : (s.release).sel = s.sel := rfl
@[simp] theorem release_status : (s.release).status = s.status := rfl
@[simp] theorem release_rdata : (s.release).rdata = s.rdata := rfl
@[simp] theorem release_rspValid : (s.release).rspValid = s.rspValid := rfl
@[simp] theorem release_rst : (s.release).rst = s.rst := rfl
@[simp] theorem release_pending : (s.release).pending = s.pending := rfl
@[simp] theorem release_tin : (s.release).tin = s.tin := rfl
@[simp] theorem release_link : (s.release).link = s.link := rfl
@[simp] theorem release_peer : (s.release).peer = s.peer := rfl
@[simp] theorem release_reply : (s.release).reply = s.reply := rfl
@[simp] theorem release_tick : (s.release).tick = s.tick := rfl
@[simp] theorem release_draws : (s.release).draws = s.draws := rfl
@[simp] theorem release_trace : (s.release).trace = s.trace := rfl

@[simp] theorem accept_cfg (op : BitVec 3) (arg : Byte) : (s.accept op arg).cfg = s.cfg := rfl
@[simp] theorem accept_w0 (op : BitVec 3) (arg : Byte) : (s.accept op arg).w0 = s.w0 := rfl
@[simp] theorem accept_tc (op : BitVec 3) (arg : Byte) : (s.accept op arg).tc = s.tc := rfl
@[simp] theorem accept_sq (op : BitVec 3) (arg : Byte) : (s.accept op arg).sq = .check := rfl
@[simp] theorem accept_op (op : BitVec 3) (arg : Byte) : (s.accept op arg).op = op := rfl
@[simp] theorem accept_arg (op : BitVec 3) (arg : Byte) : (s.accept op arg).arg = arg := rfl
@[simp] theorem accept_d (op : BitVec 3) (arg : Byte) : (s.accept op arg).d = s.d := rfl
@[simp] theorem accept_hi (op : BitVec 3) (arg : Byte) : (s.accept op arg).hi = s.hi := rfl
@[simp] theorem accept_lo (op : BitVec 3) (arg : Byte) : (s.accept op arg).lo = s.lo := rfl
@[simp] theorem accept_fail (op : BitVec 3) (arg : Byte) : (s.accept op arg).fail = false := rfl
@[simp] theorem accept_sel (op : BitVec 3) (arg : Byte) : (s.accept op arg).sel = s.sel := rfl
@[simp] theorem accept_status (op : BitVec 3) (arg : Byte) : (s.accept op arg).status = s.status := rfl
@[simp] theorem accept_rdata (op : BitVec 3) (arg : Byte) : (s.accept op arg).rdata = s.rdata := rfl
@[simp] theorem accept_rspValid (op : BitVec 3) (arg : Byte) : (s.accept op arg).rspValid = false := rfl
@[simp] theorem accept_rst (op : BitVec 3) (arg : Byte) : (s.accept op arg).rst = s.rst := rfl
@[simp] theorem accept_pending (op : BitVec 3) (arg : Byte) : (s.accept op arg).pending = s.pending := rfl
@[simp] theorem accept_tin (op : BitVec 3) (arg : Byte) : (s.accept op arg).tin = s.tin := rfl
@[simp] theorem accept_link (op : BitVec 3) (arg : Byte) : (s.accept op arg).link = s.link := rfl
@[simp] theorem accept_peer (op : BitVec 3) (arg : Byte) : (s.accept op arg).peer = s.peer := rfl
@[simp] theorem accept_reply (op : BitVec 3) (arg : Byte) : (s.accept op arg).reply = s.reply := rfl
@[simp] theorem accept_tick (op : BitVec 3) (arg : Byte) : (s.accept op arg).tick = s.tick := rfl
@[simp] theorem accept_draws (op : BitVec 3) (arg : Byte) : (s.accept op arg).draws = s.draws := rfl
@[simp] theorem accept_trace (op : BitVec 3) (arg : Byte) : (s.accept op arg).trace = s.trace := rfl

@[simp] theorem wait_cfg : (s.wait).cfg = s.cfg := rfl
@[simp] theorem wait_w0 : (s.wait).w0 = s.w0 := rfl
@[simp] theorem wait_tc : (s.wait).tc = s.tc := rfl
@[simp] theorem wait_sq : (s.wait).sq = s.sq := rfl
@[simp] theorem wait_op : (s.wait).op = s.op := rfl
@[simp] theorem wait_arg : (s.wait).arg = s.arg := rfl
@[simp] theorem wait_d : (s.wait).d = s.d := rfl
@[simp] theorem wait_hi : (s.wait).hi = s.hi := rfl
@[simp] theorem wait_lo : (s.wait).lo = s.lo := rfl
@[simp] theorem wait_fail : (s.wait).fail = s.fail := rfl
@[simp] theorem wait_sel : (s.wait).sel = s.sel := rfl
@[simp] theorem wait_status : (s.wait).status = s.status := rfl
@[simp] theorem wait_rdata : (s.wait).rdata = s.rdata := rfl
@[simp] theorem wait_rspValid : (s.wait).rspValid = false := rfl
@[simp] theorem wait_rst : (s.wait).rst = s.rst := rfl
@[simp] theorem wait_pending : (s.wait).pending = s.pending := rfl
@[simp] theorem wait_tin : (s.wait).tin = s.tin := rfl
@[simp] theorem wait_link : (s.wait).link = s.link := rfl
@[simp] theorem wait_peer : (s.wait).peer = s.peer := rfl
@[simp] theorem wait_reply : (s.wait).reply = s.reply := rfl
@[simp] theorem wait_tick : (s.wait).tick = s.tick := rfl
@[simp] theorem wait_draws : (s.wait).draws = s.draws := rfl
@[simp] theorem wait_trace : (s.wait).trace = s.trace := rfl

@[simp] theorem take_cfg (rest : List PortWord) : (s.take rest).cfg = s.cfg := rfl
@[simp] theorem take_w0 (rest : List PortWord) : (s.take rest).w0 = s.w0 := rfl
@[simp] theorem take_tc (rest : List PortWord) : (s.take rest).tc = s.tc := rfl
@[simp] theorem take_sq (rest : List PortWord) : (s.take rest).sq = s.sq := rfl
@[simp] theorem take_op (rest : List PortWord) : (s.take rest).op = s.op := rfl
@[simp] theorem take_arg (rest : List PortWord) : (s.take rest).arg = s.arg := rfl
@[simp] theorem take_d (rest : List PortWord) : (s.take rest).d = s.d := rfl
@[simp] theorem take_hi (rest : List PortWord) : (s.take rest).hi = s.hi := rfl
@[simp] theorem take_lo (rest : List PortWord) : (s.take rest).lo = s.lo := rfl
@[simp] theorem take_fail (rest : List PortWord) : (s.take rest).fail = s.fail := rfl
@[simp] theorem take_sel (rest : List PortWord) : (s.take rest).sel = s.sel := rfl
@[simp] theorem take_status (rest : List PortWord) : (s.take rest).status = s.status := rfl
@[simp] theorem take_rdata (rest : List PortWord) : (s.take rest).rdata = s.rdata := rfl
@[simp] theorem take_rspValid (rest : List PortWord) : (s.take rest).rspValid = s.rspValid := rfl
@[simp] theorem take_rst (rest : List PortWord) : (s.take rest).rst = s.rst := rfl
@[simp] theorem take_pending (rest : List PortWord) : (s.take rest).pending = rest := rfl
@[simp] theorem take_tin (rest : List PortWord) : (s.take rest).tin = s.tin := rfl
@[simp] theorem take_link (rest : List PortWord) : (s.take rest).link = s.link := rfl
@[simp] theorem take_peer (rest : List PortWord) : (s.take rest).peer = s.peer := rfl
@[simp] theorem take_reply (rest : List PortWord) : (s.take rest).reply = s.reply := rfl
@[simp] theorem take_tick (rest : List PortWord) : (s.take rest).tick = s.tick := rfl
@[simp] theorem take_draws (rest : List PortWord) : (s.take rest).draws = s.draws := rfl
@[simp] theorem take_trace (rest : List PortWord) : (s.take rest).trace = s.trace := rfl

@[simp] theorem goto_cfg (q : Sq) : (s.goto q).cfg = s.cfg := rfl
@[simp] theorem goto_w0 (q : Sq) : (s.goto q).w0 = s.w0 := rfl
@[simp] theorem goto_tc (q : Sq) : (s.goto q).tc = s.tc := rfl
@[simp] theorem goto_sq (q : Sq) : (s.goto q).sq = q := rfl
@[simp] theorem goto_op (q : Sq) : (s.goto q).op = s.op := rfl
@[simp] theorem goto_arg (q : Sq) : (s.goto q).arg = s.arg := rfl
@[simp] theorem goto_d (q : Sq) : (s.goto q).d = s.d := rfl
@[simp] theorem goto_hi (q : Sq) : (s.goto q).hi = s.hi := rfl
@[simp] theorem goto_lo (q : Sq) : (s.goto q).lo = s.lo := rfl
@[simp] theorem goto_fail (q : Sq) : (s.goto q).fail = s.fail := rfl
@[simp] theorem goto_sel (q : Sq) : (s.goto q).sel = s.sel := rfl
@[simp] theorem goto_status (q : Sq) : (s.goto q).status = s.status := rfl
@[simp] theorem goto_rdata (q : Sq) : (s.goto q).rdata = s.rdata := rfl
@[simp] theorem goto_rspValid (q : Sq) : (s.goto q).rspValid = s.rspValid := rfl
@[simp] theorem goto_rst (q : Sq) : (s.goto q).rst = s.rst := rfl
@[simp] theorem goto_pending (q : Sq) : (s.goto q).pending = s.pending := rfl
@[simp] theorem goto_tin (q : Sq) : (s.goto q).tin = s.tin := rfl
@[simp] theorem goto_link (q : Sq) : (s.goto q).link = s.link := rfl
@[simp] theorem goto_peer (q : Sq) : (s.goto q).peer = s.peer := rfl
@[simp] theorem goto_reply (q : Sq) : (s.goto q).reply = s.reply := rfl
@[simp] theorem goto_tick (q : Sq) : (s.goto q).tick = s.tick := rfl
@[simp] theorem goto_draws (q : Sq) : (s.goto q).draws = s.draws := rfl
@[simp] theorem goto_trace (q : Sq) : (s.goto q).trace = s.trace := rfl

@[simp] theorem setD_cfg (v : Byte) : (s.setD v).cfg = s.cfg := rfl
@[simp] theorem setD_w0 (v : Byte) : (s.setD v).w0 = s.w0 := rfl
@[simp] theorem setD_tc (v : Byte) : (s.setD v).tc = s.tc := rfl
@[simp] theorem setD_sq (v : Byte) : (s.setD v).sq = s.sq := rfl
@[simp] theorem setD_op (v : Byte) : (s.setD v).op = s.op := rfl
@[simp] theorem setD_arg (v : Byte) : (s.setD v).arg = s.arg := rfl
@[simp] theorem setD_d (v : Byte) : (s.setD v).d = v := rfl
@[simp] theorem setD_hi (v : Byte) : (s.setD v).hi = s.hi := rfl
@[simp] theorem setD_lo (v : Byte) : (s.setD v).lo = s.lo := rfl
@[simp] theorem setD_fail (v : Byte) : (s.setD v).fail = s.fail := rfl
@[simp] theorem setD_sel (v : Byte) : (s.setD v).sel = s.sel := rfl
@[simp] theorem setD_status (v : Byte) : (s.setD v).status = s.status := rfl
@[simp] theorem setD_rdata (v : Byte) : (s.setD v).rdata = s.rdata := rfl
@[simp] theorem setD_rspValid (v : Byte) : (s.setD v).rspValid = s.rspValid := rfl
@[simp] theorem setD_rst (v : Byte) : (s.setD v).rst = s.rst := rfl
@[simp] theorem setD_pending (v : Byte) : (s.setD v).pending = s.pending := rfl
@[simp] theorem setD_tin (v : Byte) : (s.setD v).tin = s.tin := rfl
@[simp] theorem setD_link (v : Byte) : (s.setD v).link = s.link := rfl
@[simp] theorem setD_peer (v : Byte) : (s.setD v).peer = s.peer := rfl
@[simp] theorem setD_reply (v : Byte) : (s.setD v).reply = s.reply := rfl
@[simp] theorem setD_tick (v : Byte) : (s.setD v).tick = s.tick := rfl
@[simp] theorem setD_draws (v : Byte) : (s.setD v).draws = s.draws := rfl
@[simp] theorem setD_trace (v : Byte) : (s.setD v).trace = s.trace := rfl

@[simp] theorem setHi_cfg (v : Byte) : (s.setHi v).cfg = s.cfg := rfl
@[simp] theorem setHi_w0 (v : Byte) : (s.setHi v).w0 = s.w0 := rfl
@[simp] theorem setHi_tc (v : Byte) : (s.setHi v).tc = s.tc := rfl
@[simp] theorem setHi_sq (v : Byte) : (s.setHi v).sq = s.sq := rfl
@[simp] theorem setHi_op (v : Byte) : (s.setHi v).op = s.op := rfl
@[simp] theorem setHi_arg (v : Byte) : (s.setHi v).arg = s.arg := rfl
@[simp] theorem setHi_d (v : Byte) : (s.setHi v).d = s.d := rfl
@[simp] theorem setHi_hi (v : Byte) : (s.setHi v).hi = v := rfl
@[simp] theorem setHi_lo (v : Byte) : (s.setHi v).lo = s.lo := rfl
@[simp] theorem setHi_fail (v : Byte) : (s.setHi v).fail = s.fail := rfl
@[simp] theorem setHi_sel (v : Byte) : (s.setHi v).sel = s.sel := rfl
@[simp] theorem setHi_status (v : Byte) : (s.setHi v).status = s.status := rfl
@[simp] theorem setHi_rdata (v : Byte) : (s.setHi v).rdata = s.rdata := rfl
@[simp] theorem setHi_rspValid (v : Byte) : (s.setHi v).rspValid = s.rspValid := rfl
@[simp] theorem setHi_rst (v : Byte) : (s.setHi v).rst = s.rst := rfl
@[simp] theorem setHi_pending (v : Byte) : (s.setHi v).pending = s.pending := rfl
@[simp] theorem setHi_tin (v : Byte) : (s.setHi v).tin = s.tin := rfl
@[simp] theorem setHi_link (v : Byte) : (s.setHi v).link = s.link := rfl
@[simp] theorem setHi_peer (v : Byte) : (s.setHi v).peer = s.peer := rfl
@[simp] theorem setHi_reply (v : Byte) : (s.setHi v).reply = s.reply := rfl
@[simp] theorem setHi_tick (v : Byte) : (s.setHi v).tick = s.tick := rfl
@[simp] theorem setHi_draws (v : Byte) : (s.setHi v).draws = s.draws := rfl
@[simp] theorem setHi_trace (v : Byte) : (s.setHi v).trace = s.trace := rfl

@[simp] theorem setLo_cfg (v : Byte) : (s.setLo v).cfg = s.cfg := rfl
@[simp] theorem setLo_w0 (v : Byte) : (s.setLo v).w0 = s.w0 := rfl
@[simp] theorem setLo_tc (v : Byte) : (s.setLo v).tc = s.tc := rfl
@[simp] theorem setLo_sq (v : Byte) : (s.setLo v).sq = s.sq := rfl
@[simp] theorem setLo_op (v : Byte) : (s.setLo v).op = s.op := rfl
@[simp] theorem setLo_arg (v : Byte) : (s.setLo v).arg = s.arg := rfl
@[simp] theorem setLo_d (v : Byte) : (s.setLo v).d = s.d := rfl
@[simp] theorem setLo_hi (v : Byte) : (s.setLo v).hi = s.hi := rfl
@[simp] theorem setLo_lo (v : Byte) : (s.setLo v).lo = v := rfl
@[simp] theorem setLo_fail (v : Byte) : (s.setLo v).fail = s.fail := rfl
@[simp] theorem setLo_sel (v : Byte) : (s.setLo v).sel = s.sel := rfl
@[simp] theorem setLo_status (v : Byte) : (s.setLo v).status = s.status := rfl
@[simp] theorem setLo_rdata (v : Byte) : (s.setLo v).rdata = s.rdata := rfl
@[simp] theorem setLo_rspValid (v : Byte) : (s.setLo v).rspValid = s.rspValid := rfl
@[simp] theorem setLo_rst (v : Byte) : (s.setLo v).rst = s.rst := rfl
@[simp] theorem setLo_pending (v : Byte) : (s.setLo v).pending = s.pending := rfl
@[simp] theorem setLo_tin (v : Byte) : (s.setLo v).tin = s.tin := rfl
@[simp] theorem setLo_link (v : Byte) : (s.setLo v).link = s.link := rfl
@[simp] theorem setLo_peer (v : Byte) : (s.setLo v).peer = s.peer := rfl
@[simp] theorem setLo_reply (v : Byte) : (s.setLo v).reply = s.reply := rfl
@[simp] theorem setLo_tick (v : Byte) : (s.setLo v).tick = s.tick := rfl
@[simp] theorem setLo_draws (v : Byte) : (s.setLo v).draws = s.draws := rfl
@[simp] theorem setLo_trace (v : Byte) : (s.setLo v).trace = s.trace := rfl

@[simp] theorem setW0_cfg (v : Byte) : (s.setW0 v).cfg = s.cfg := rfl
@[simp] theorem setW0_w0 (v : Byte) : (s.setW0 v).w0 = v := rfl
@[simp] theorem setW0_tc (v : Byte) : (s.setW0 v).tc = s.tc := rfl
@[simp] theorem setW0_sq (v : Byte) : (s.setW0 v).sq = s.sq := rfl
@[simp] theorem setW0_op (v : Byte) : (s.setW0 v).op = s.op := rfl
@[simp] theorem setW0_arg (v : Byte) : (s.setW0 v).arg = s.arg := rfl
@[simp] theorem setW0_d (v : Byte) : (s.setW0 v).d = s.d := rfl
@[simp] theorem setW0_hi (v : Byte) : (s.setW0 v).hi = s.hi := rfl
@[simp] theorem setW0_lo (v : Byte) : (s.setW0 v).lo = s.lo := rfl
@[simp] theorem setW0_fail (v : Byte) : (s.setW0 v).fail = s.fail := rfl
@[simp] theorem setW0_sel (v : Byte) : (s.setW0 v).sel = s.sel := rfl
@[simp] theorem setW0_status (v : Byte) : (s.setW0 v).status = s.status := rfl
@[simp] theorem setW0_rdata (v : Byte) : (s.setW0 v).rdata = s.rdata := rfl
@[simp] theorem setW0_rspValid (v : Byte) : (s.setW0 v).rspValid = s.rspValid := rfl
@[simp] theorem setW0_rst (v : Byte) : (s.setW0 v).rst = s.rst := rfl
@[simp] theorem setW0_pending (v : Byte) : (s.setW0 v).pending = s.pending := rfl
@[simp] theorem setW0_tin (v : Byte) : (s.setW0 v).tin = s.tin := rfl
@[simp] theorem setW0_link (v : Byte) : (s.setW0 v).link = s.link := rfl
@[simp] theorem setW0_peer (v : Byte) : (s.setW0 v).peer = s.peer := rfl
@[simp] theorem setW0_reply (v : Byte) : (s.setW0 v).reply = s.reply := rfl
@[simp] theorem setW0_tick (v : Byte) : (s.setW0 v).tick = s.tick := rfl
@[simp] theorem setW0_draws (v : Byte) : (s.setW0 v).draws = s.draws := rfl
@[simp] theorem setW0_trace (v : Byte) : (s.setW0 v).trace = s.trace := rfl

@[simp] theorem setTc_cfg (t : TermState) : (s.setTc t).cfg = s.cfg := rfl
@[simp] theorem setTc_w0 (t : TermState) : (s.setTc t).w0 = s.w0 := rfl
@[simp] theorem setTc_tc (t : TermState) : (s.setTc t).tc = some t := rfl
@[simp] theorem setTc_sq (t : TermState) : (s.setTc t).sq = s.sq := rfl
@[simp] theorem setTc_op (t : TermState) : (s.setTc t).op = s.op := rfl
@[simp] theorem setTc_arg (t : TermState) : (s.setTc t).arg = s.arg := rfl
@[simp] theorem setTc_d (t : TermState) : (s.setTc t).d = s.d := rfl
@[simp] theorem setTc_hi (t : TermState) : (s.setTc t).hi = s.hi := rfl
@[simp] theorem setTc_lo (t : TermState) : (s.setTc t).lo = s.lo := rfl
@[simp] theorem setTc_fail (t : TermState) : (s.setTc t).fail = s.fail := rfl
@[simp] theorem setTc_sel (t : TermState) : (s.setTc t).sel = s.sel := rfl
@[simp] theorem setTc_status (t : TermState) : (s.setTc t).status = s.status := rfl
@[simp] theorem setTc_rdata (t : TermState) : (s.setTc t).rdata = s.rdata := rfl
@[simp] theorem setTc_rspValid (t : TermState) : (s.setTc t).rspValid = s.rspValid := rfl
@[simp] theorem setTc_rst (t : TermState) : (s.setTc t).rst = s.rst := rfl
@[simp] theorem setTc_pending (t : TermState) : (s.setTc t).pending = s.pending := rfl
@[simp] theorem setTc_tin (t : TermState) : (s.setTc t).tin = s.tin := rfl
@[simp] theorem setTc_link (t : TermState) : (s.setTc t).link = s.link := rfl
@[simp] theorem setTc_peer (t : TermState) : (s.setTc t).peer = s.peer := rfl
@[simp] theorem setTc_reply (t : TermState) : (s.setTc t).reply = s.reply := rfl
@[simp] theorem setTc_tick (t : TermState) : (s.setTc t).tick = s.tick := rfl
@[simp] theorem setTc_draws (t : TermState) : (s.setTc t).draws = s.draws := rfl
@[simp] theorem setTc_trace (t : TermState) : (s.setTc t).trace = s.trace := rfl

@[simp] theorem abort_cfg : (s.abort).cfg = s.cfg := rfl
@[simp] theorem abort_w0 : (s.abort).w0 = s.w0 := rfl
@[simp] theorem abort_tc : (s.abort).tc = s.tc := rfl
@[simp] theorem abort_sq : (s.abort).sq = .finish := rfl
@[simp] theorem abort_op : (s.abort).op = s.op := rfl
@[simp] theorem abort_arg : (s.abort).arg = s.arg := rfl
@[simp] theorem abort_d : (s.abort).d = s.d := rfl
@[simp] theorem abort_hi : (s.abort).hi = s.hi := rfl
@[simp] theorem abort_lo : (s.abort).lo = s.lo := rfl
@[simp] theorem abort_fail : (s.abort).fail = true := rfl
@[simp] theorem abort_sel : (s.abort).sel = s.sel := rfl
@[simp] theorem abort_status : (s.abort).status = s.status := rfl
@[simp] theorem abort_rdata : (s.abort).rdata = s.rdata := rfl
@[simp] theorem abort_rspValid : (s.abort).rspValid = s.rspValid := rfl
@[simp] theorem abort_rst : (s.abort).rst = s.rst := rfl
@[simp] theorem abort_pending : (s.abort).pending = s.pending := rfl
@[simp] theorem abort_tin : (s.abort).tin = s.tin := rfl
@[simp] theorem abort_link : (s.abort).link = s.link := rfl
@[simp] theorem abort_peer : (s.abort).peer = s.peer := rfl
@[simp] theorem abort_reply : (s.abort).reply = s.reply := rfl
@[simp] theorem abort_tick : (s.abort).tick = s.tick := rfl
@[simp] theorem abort_draws : (s.abort).draws = s.draws := rfl
@[simp] theorem abort_trace : (s.abort).trace = s.trace := rfl

@[simp] theorem opened_cfg : (s.opened).cfg = s.cfg := by unfold State.opened; simp
@[simp] theorem opened_w0 : (s.opened).w0 = s.w0 := by unfold State.opened; simp
@[simp] theorem opened_tc : (s.opened).tc = s.tc := by unfold State.opened; simp
@[simp] theorem opened_sq : (s.opened).sq = s.sq := by unfold State.opened; simp
@[simp] theorem opened_op : (s.opened).op = s.op := by unfold State.opened; simp
@[simp] theorem opened_arg : (s.opened).arg = s.arg := by unfold State.opened; simp
@[simp] theorem opened_d : (s.opened).d = s.d := by unfold State.opened; simp
@[simp] theorem opened_hi : (s.opened).hi = s.hi := by unfold State.opened; simp
@[simp] theorem opened_lo : (s.opened).lo = s.lo := by unfold State.opened; simp
@[simp] theorem opened_fail : (s.opened).fail = s.fail := by unfold State.opened; simp
@[simp] theorem opened_sel : (s.opened).sel = true := by unfold State.opened; simp
@[simp] theorem opened_status : (s.opened).status = s.status := by unfold State.opened; simp
@[simp] theorem opened_rdata : (s.opened).rdata = s.rdata := by unfold State.opened; simp
@[simp] theorem opened_rspValid : (s.opened).rspValid = s.rspValid := by unfold State.opened; simp
@[simp] theorem opened_rst : (s.opened).rst = s.rst := by unfold State.opened; simp
@[simp] theorem opened_pending : (s.opened).pending = s.pending := by unfold State.opened; simp
@[simp] theorem opened_tin : (s.opened).tin = s.tin.tail := by unfold State.opened; simp
@[simp] theorem opened_link : (s.opened).link = s.link := by unfold State.opened; simp
@[simp] theorem opened_peer : (s.opened).peer = match s.link with | .free => s.peer | .reference => s.peer.select := by unfold State.opened; simp only [log_peer, onPeer_peer]; rfl
@[simp] theorem opened_reply : (s.opened).reply = s.reply := by unfold State.opened; simp
@[simp] theorem opened_tick : (s.opened).tick = s.tick + 1 := by unfold State.opened; simp
@[simp] theorem opened_draws : (s.opened).draws = s.draws := by unfold State.opened; simp
@[simp] theorem opened_trace : (s.opened).trace = s.trace ++ [.selected] := by unfold State.opened; simp

@[simp] theorem closed_cfg : (s.closed).cfg = s.cfg := by unfold State.closed; simp
@[simp] theorem closed_w0 : (s.closed).w0 = s.w0 := by unfold State.closed; simp
@[simp] theorem closed_tc : (s.closed).tc = s.tc := by unfold State.closed; simp
@[simp] theorem closed_sq : (s.closed).sq = s.sq := by unfold State.closed; simp
@[simp] theorem closed_op : (s.closed).op = s.op := by unfold State.closed; simp
@[simp] theorem closed_arg : (s.closed).arg = s.arg := by unfold State.closed; simp
@[simp] theorem closed_d : (s.closed).d = s.d := by unfold State.closed; simp
@[simp] theorem closed_hi : (s.closed).hi = s.hi := by unfold State.closed; simp
@[simp] theorem closed_lo : (s.closed).lo = s.lo := by unfold State.closed; simp
@[simp] theorem closed_fail : (s.closed).fail = s.fail := by unfold State.closed; simp
@[simp] theorem closed_sel : (s.closed).sel = false := by unfold State.closed; simp
@[simp] theorem closed_status : (s.closed).status = s.status := by unfold State.closed; simp
@[simp] theorem closed_rdata : (s.closed).rdata = s.rdata := by unfold State.closed; simp
@[simp] theorem closed_rspValid : (s.closed).rspValid = s.rspValid := by unfold State.closed; simp
@[simp] theorem closed_rst : (s.closed).rst = s.rst := by unfold State.closed; simp
@[simp] theorem closed_pending : (s.closed).pending = s.pending := by unfold State.closed; simp
@[simp] theorem closed_tin : (s.closed).tin = s.tin.tail := by unfold State.closed; simp
@[simp] theorem closed_link : (s.closed).link = s.link := by unfold State.closed; simp
@[simp] theorem closed_peer : (s.closed).peer = match s.link with | .free => s.peer | .reference => s.peer.deselect := by unfold State.closed; simp only [log_peer, onPeer_peer]; rfl
@[simp] theorem closed_reply : (s.closed).reply = s.reply := by unfold State.closed; simp
@[simp] theorem closed_tick : (s.closed).tick = s.tick + 1 := by unfold State.closed; simp
@[simp] theorem closed_draws : (s.closed).draws = s.draws := by unfold State.closed; simp
@[simp] theorem closed_trace : (s.closed).trace = s.trace ++ [.deselected] := by unfold State.closed; simp

@[simp] theorem sent_cfg (b : Byte) : (s.sent b).cfg = s.cfg := by unfold State.sent; split <;> simp
@[simp] theorem sent_w0 (b : Byte) : (s.sent b).w0 = s.w0 := by unfold State.sent; split <;> simp
@[simp] theorem sent_tc (b : Byte) : (s.sent b).tc = s.tc := by unfold State.sent; split <;> simp
@[simp] theorem sent_sq (b : Byte) : (s.sent b).sq = s.sq := by unfold State.sent; split <;> simp
@[simp] theorem sent_op (b : Byte) : (s.sent b).op = s.op := by unfold State.sent; split <;> simp
@[simp] theorem sent_arg (b : Byte) : (s.sent b).arg = s.arg := by unfold State.sent; split <;> simp
@[simp] theorem sent_d (b : Byte) : (s.sent b).d = s.d := by unfold State.sent; split <;> simp
@[simp] theorem sent_hi (b : Byte) : (s.sent b).hi = s.hi := by unfold State.sent; split <;> simp
@[simp] theorem sent_lo (b : Byte) : (s.sent b).lo = s.lo := by unfold State.sent; split <;> simp
@[simp] theorem sent_fail (b : Byte) : (s.sent b).fail = s.fail := by unfold State.sent; split <;> simp
@[simp] theorem sent_sel (b : Byte) : (s.sent b).sel = s.sel := by unfold State.sent; split <;> simp
@[simp] theorem sent_status (b : Byte) : (s.sent b).status = s.status := by unfold State.sent; split <;> simp
@[simp] theorem sent_rdata (b : Byte) : (s.sent b).rdata = s.rdata := by unfold State.sent; split <;> simp
@[simp] theorem sent_rspValid (b : Byte) : (s.sent b).rspValid = s.rspValid := by unfold State.sent; split <;> simp
@[simp] theorem sent_rst (b : Byte) : (s.sent b).rst = s.rst := by unfold State.sent; split <;> simp
@[simp] theorem sent_pending (b : Byte) : (s.sent b).pending = s.pending := by unfold State.sent; split <;> simp
@[simp] theorem sent_tin (b : Byte) : (s.sent b).tin = s.tin.tail := by unfold State.sent; split <;> simp
@[simp] theorem sent_link (b : Byte) : (s.sent b).link = s.link := by unfold State.sent; split <;> simp
@[simp] theorem sent_peer (b : Byte) : (s.sent b).peer = if (s.answerAt 0).ok then (match s.link with | .free => s.peer | .reference => s.peer.write s.cfg b) else s.peer := by unfold State.sent; split <;> simp [*]
@[simp] theorem sent_reply (b : Byte) : (s.sent b).reply = s.reply := by unfold State.sent; split <;> simp
@[simp] theorem sent_tick (b : Byte) : (s.sent b).tick = s.tick + 1 := by unfold State.sent; split <;> simp
@[simp] theorem sent_draws (b : Byte) : (s.sent b).draws = s.draws := by unfold State.sent; split <;> simp
@[simp] theorem sent_trace (b : Byte) : (s.sent b).trace = s.trace ++ [.wrote b (s.answerAt 0).ok] := by unfold State.sent; split <;> simp

@[simp] theorem gotten_cfg : (s.gotten).cfg = s.cfg := by unfold State.gotten; split <;> simp
@[simp] theorem gotten_w0 : (s.gotten).w0 = s.w0 := by unfold State.gotten; split <;> simp
@[simp] theorem gotten_tc : (s.gotten).tc = s.tc := by unfold State.gotten; split <;> simp
@[simp] theorem gotten_sq : (s.gotten).sq = s.sq := by unfold State.gotten; split <;> simp
@[simp] theorem gotten_op : (s.gotten).op = s.op := by unfold State.gotten; split <;> simp
@[simp] theorem gotten_arg : (s.gotten).arg = s.arg := by unfold State.gotten; split <;> simp
@[simp] theorem gotten_d : (s.gotten).d = s.d := by unfold State.gotten; split <;> simp
@[simp] theorem gotten_hi : (s.gotten).hi = s.hi := by unfold State.gotten; split <;> simp
@[simp] theorem gotten_lo : (s.gotten).lo = s.lo := by unfold State.gotten; split <;> simp
@[simp] theorem gotten_fail : (s.gotten).fail = s.fail := by unfold State.gotten; split <;> simp
@[simp] theorem gotten_sel : (s.gotten).sel = s.sel := by unfold State.gotten; split <;> simp
@[simp] theorem gotten_status : (s.gotten).status = s.status := by unfold State.gotten; split <;> simp
@[simp] theorem gotten_rdata : (s.gotten).rdata = s.rdata := by unfold State.gotten; split <;> simp
@[simp] theorem gotten_rspValid : (s.gotten).rspValid = s.rspValid := by unfold State.gotten; split <;> simp
@[simp] theorem gotten_rst : (s.gotten).rst = s.rst := by unfold State.gotten; split <;> simp
@[simp] theorem gotten_pending : (s.gotten).pending = s.pending := by unfold State.gotten; split <;> simp
@[simp] theorem gotten_tin : (s.gotten).tin = s.tin.tail := by unfold State.gotten; split <;> simp
@[simp] theorem gotten_link : (s.gotten).link = s.link := by unfold State.gotten; split <;> simp
@[simp] theorem gotten_peer : (s.gotten).peer = if (s.answerAt 0).ok then (match s.link with | .free => s.peer | .reference => s.peer.afterRead s.cfg) else s.peer := by unfold State.gotten; split <;> simp [*]
@[simp] theorem gotten_reply : (s.gotten).reply = s.reply := by unfold State.gotten; split <;> simp
@[simp] theorem gotten_tick : (s.gotten).tick = s.tick + 1 := by unfold State.gotten; split <;> simp
@[simp] theorem gotten_draws : (s.gotten).draws = s.draws := by unfold State.gotten; split <;> simp
@[simp] theorem gotten_trace : (s.gotten).trace = s.trace ++ [.got s.received (s.answerAt 0).ok] := by unfold State.gotten; split <;> simp

end Sys2Proof.Machine
end

