-- ==== Sys2Proof/Laws/Transport.lean ====
section
/-! SUPPORT. The transport boundary: which answer a primitive gets, and what a primitive comes to. -/

namespace Sys2Proof.Machine

variable (s : State)

/-- The answers a state will get depend on the script, the count and the kind of transport only. -/
theorem answerAt_congr {s t : State} (h1 : t.tin = s.tin) (h2 : t.tick = s.tick) (h3 : t.link = s.link) (k : Nat) :
    t.answerAt k = s.answerAt k := by
  unfold State.answerAt; rw [h1, h2, h3]

/-- One answer later, the answers are shifted by one. -/
theorem answerAt_shift {s t : State} (h1 : t.tin = s.tin.tail) (h2 : t.tick = s.tick + 1) (h3 : t.link = s.link)
    (k : Nat) : t.answerAt k = s.answerAt (k + 1) := by
  unfold State.answerAt
  rw [h1, h2, h3, List.getElem?_tail, Nat.add_assoc, Nat.add_comm 1 k]

@[simp] theorem consume_answerAt (k : Nat) : (s.consume).answerAt k = s.answerAt (k + 1) :=
  answerAt_shift (by simp) (by simp) (by simp) k
@[simp] theorem opened_answerAt (k : Nat) : (s.opened).answerAt k = s.answerAt (k + 1) :=
  answerAt_shift (by simp) (by simp) (by simp) k
@[simp] theorem closed_answerAt (k : Nat) : (s.closed).answerAt k = s.answerAt (k + 1) :=
  answerAt_shift (by simp) (by simp) (by simp) k
@[simp] theorem sent_answerAt (b : Byte) (k : Nat) : (s.sent b).answerAt k = s.answerAt (k + 1) :=
  answerAt_shift (by simp) (by simp) (by simp) k
@[simp] theorem gotten_answerAt (k : Nat) : (s.gotten).answerAt k = s.answerAt (k + 1) :=
  answerAt_shift (by simp) (by simp) (by simp) k
@[simp] theorem goto_answerAt (q : Sq) (k : Nat) : (s.goto q).answerAt k = s.answerAt k := rfl
@[simp] theorem abort_answerAt (k : Nat) : (s.abort).answerAt k = s.answerAt k := rfl
@[simp] theorem setD_answerAt (v : Byte) (k : Nat) : (s.setD v).answerAt k = s.answerAt k := rfl
@[simp] theorem setHi_answerAt (v : Byte) (k : Nat) : (s.setHi v).answerAt k = s.answerAt k := rfl
@[simp] theorem setLo_answerAt (v : Byte) (k : Nat) : (s.setLo v).answerAt k = s.answerAt k := rfl
@[simp] theorem setW0_answerAt (v : Byte) (k : Nat) : (s.setW0 v).answerAt k = s.answerAt k := rfl
@[simp] theorem release_answerAt (k : Nat) : (s.release).answerAt k = s.answerAt k := rfl
@[simp] theorem accept_answerAt (op : BitVec 3) (arg : Byte) (k : Nat) : (s.accept op arg).answerAt k = s.answerAt k := rfl
@[simp] theorem take_answerAt (rest : List PortWord) (k : Nat) : (s.take rest).answerAt k = s.answerAt k := rfl
@[simp] theorem respond_answerAt (st : Status) (k : Nat) : (s.respond st).answerAt k = s.answerAt k := rfl
@[simp] theorem respondValue_answerAt (v : Byte) (k : Nat) : (s.respondValue v).answerAt k = s.answerAt k := rfl
@[simp] theorem setTc_answerAt (t : TermState) (k : Nat) : (s.setTc t).answerAt k = s.answerAt k := rfl
@[simp] theorem wait_answerAt (k : Nat) : (s.wait).answerAt k = s.answerAt k := rfl

@[simp] theorem goto_received (q : Sq) : (s.goto q).received = s.received := rfl
@[simp] theorem setD_received (v : Byte) : (s.setD v).received = s.received := rfl
@[simp] theorem setHi_received (v : Byte) : (s.setHi v).received = s.received := rfl
@[simp] theorem setLo_received (v : Byte) : (s.setLo v).received = s.received := rfl

/-- What a primitive comes to: it waits exactly when the transport does not complete it; otherwise its effect is the one
of R80, and only a byte primitive can report a failure. -/
theorem primitive_cases (p : Prim) :
    ((s.answerAt 0).done = false ∧ primitive p s = .waiting s.consume) ∨
    ((s.answerAt 0).done = true ∧
      ((p = .select ∧ primitive p s = .done s.opened true 0#8) ∨
       (p = .deselect ∧ primitive p s = .done s.closed true 0#8) ∨
       (∃ b, p = .writeByte b ∧ primitive p s = .done (s.sent b) (s.answerAt 0).ok 0#8) ∨
       (p = .readByte ∧ primitive p s = .done s.gotten (s.answerAt 0).ok s.received))) := by
  unfold primitive
  cases h : (s.answerAt 0).done <;> cases p <;> simp

/-- The premise of R193 after one primitive. -/
theorem Prompt_shift {s t : State} {n : Nat} (h : ∀ k, t.answerAt k = s.answerAt (k + 1))
    (hp : ∀ k, k < n + 1 → (s.answerAt k).done = true) : ∀ k, k < n → (t.answerAt k).done = true := by
  intro k hk; rw [h]; exact hp _ (by omega)

end Sys2Proof.Machine
end

