-- ==== Sys2Proof/Laws/Sequencer.lean ====
section
/-! SUPPORT. What the sequencer can do: one inversion lemma for a step, one induction principle for a run, and the run of
each frame format when the transport completes every primitive. -/

namespace Sys2Proof.Machine

variable {m : MicroProgram} {s : State}

/-- What one sequencer step comes to (R83 to R85): it stands still when idle or when the transport has not completed the
primitive; otherwise it runs CHECK, passes over a step the frame does not have, or goes on after its primitive. -/
theorem advance_cases (m : MicroProgram) (s : State) :
    (s.sq = .idle ∧ advance m s = .halted s) ∨
    (s.sq = .check ∧ advance m s = .moved (runCheck m s)) ∨
    (s.sq ≠ .idle ∧ s.sq ≠ .check ∧
      ((currentPrim m s = none ∧ advance m s = .moved (s.goto (nextSq m.format s.sq))) ∨
       (∃ p, currentPrim m s = some p ∧ (s.answerAt 0).done = false ∧ advance m s = .halted s.consume) ∨
       (∃ p t ok b, currentPrim m s = some p ∧ (s.answerAt 0).done = true ∧ primitive p s = .done t ok b ∧
          advance m s = .moved (afterPrim m s.sq ok b t)))) := by
  unfold advance
  split
  · exact .inl ⟨‹_›, rfl⟩
  · exact .inr (.inl ⟨‹_›, rfl⟩)
  · refine .inr (.inr ⟨‹_›, ‹_›, ?_⟩)
    split
    · exact .inl ⟨‹_›, rfl⟩
    · rename_i p hp
      refine .inr ?_
      rcases primitive_cases s p with ⟨hd, hq⟩ | ⟨hd, hq⟩
      · exact .inl ⟨p, hp, hd, by simp [hq]⟩
      · refine .inr ⟨p, ?_⟩
        rcases hq with ⟨-, hq⟩ | ⟨-, hq⟩ | ⟨b, -, hq⟩ | ⟨-, hq⟩ <;>
          exact ⟨_, _, _, hp, hd, hq, by simp [hq]⟩

/-- A property every sequencer step keeps holds after any number of them. -/
theorem runSteps_induct {P : State → Prop}
    (step_keeps : ∀ s t, P s → (advance m s = .moved t ∨ advance m s = .halted t) → P t) :
    ∀ n s, P s → P (runSteps m n s)
  | 0, _, h => h
  | n + 1, s, h => by
    unfold runSteps
    split
    · exact step_keeps s _ h (.inr ‹_›)
    · exact runSteps_induct step_keeps n _ (step_keeps s _ h (.inl ‹_›))

theorem runSteps_idle (h : s.sq = .idle) (n : Nat) : runSteps m n s = s := by
  cases n <;> simp [runSteps, advance, h]

theorem runSteps_check (h : s.sq = .check) (n : Nat) :
    runSteps m (n + 1) s = runSteps m n (runCheck m s) := by
  simp [runSteps, advance, h]

/-- A primitive the transport has not completed: the run stops there (R82). -/
theorem runSteps_waiting {p : Prim} (hp : currentPrim m s = some p) (hd : (s.answerAt 0).done = false) (n : Nat) :
    runSteps m (n + 1) s = s.consume := by
  rcases advance_cases m s with ⟨h, -⟩ | ⟨h, -⟩ | ⟨-, -, h⟩
  · simp [currentPrim, h] at hp
  · simp [currentPrim, h] at hp
  · rcases h with ⟨h, -⟩ | ⟨p', -, -, h⟩ | ⟨p', t, ok, b, -, h, -, -⟩
    · simp [hp] at h
    · simp [runSteps, h]
    · simp [hd] at h

theorem runSteps_select (h : s.sq = .select) (hd : (s.answerAt 0).done = true) (n : Nat) :
    runSteps m (n + 1) s = runSteps m n (s.opened.goto .b0) := by
  simp [runSteps, advance, h, currentPrim, primitive, hd, afterPrim, latchByte, nextSq]

/-- A byte step that writes (R84, R85). -/
theorem runSteps_b0 (h : s.sq = .b0) (hd : (s.answerAt 0).done = true) (n : Nat) :
    runSteps m (n + 1) s = runSteps m n (if (s.answerAt 0).ok = true
      then (s.sent (m.cmd s.cfg)).goto (nextSq m.format .b0) else (s.sent (m.cmd s.cfg)).abort) := by
  simp [runSteps, advance, h, currentPrim, bytePrim, primitive, hd, afterPrim, latchByte]

theorem runSteps_b1_write (hf : m.format = .w2) (h : s.sq = .b1) (hd : (s.answerAt 0).done = true) (n : Nat) :
    runSteps m (n + 1) s = runSteps m n (if (s.answerAt 0).ok = true
      then (s.sent s.d).goto .finish else (s.sent s.d).abort) := by
  simp [runSteps, advance, h, currentPrim, bytePrim, primitive, hd, afterPrim, latchByte, hf, nextSq]

theorem runSteps_b1_read (hf : m.format = .r4) (h : s.sq = .b1) (hd : (s.answerAt 0).done = true) (n : Nat) :
    runSteps m (n + 1) s = runSteps m n (if (s.answerAt 0).ok = true
      then (s.sent s.cfg.dummyByte).goto .b2 else (s.sent s.cfg.dummyByte).abort) := by
  simp [runSteps, advance, h, currentPrim, bytePrim, primitive, hd, afterPrim, latchByte, hf, nextSq]

theorem runSteps_b2 (hf : m.format = .r4) (h : s.sq = .b2) (hd : (s.answerAt 0).done = true) (n : Nat) :
    runSteps m (n + 1) s = runSteps m n (if (s.answerAt 0).ok = true
      then (s.gotten.setHi s.received).goto .b3 else (s.gotten.setHi s.received).abort) := by
  simp [runSteps, advance, h, currentPrim, bytePrim, primitive, hd, afterPrim, latchByte, hf, nextSq]

theorem runSteps_b3 (hf : m.format = .r4) (h : s.sq = .b3) (hd : (s.answerAt 0).done = true) (n : Nat) :
    runSteps m (n + 1) s = runSteps m n (if (s.answerAt 0).ok = true
      then (s.gotten.setLo s.received).goto .finish else (s.gotten.setLo s.received).abort) := by
  simp [runSteps, advance, h, currentPrim, bytePrim, primitive, hd, afterPrim, latchByte, hf, nextSq]

@[simp] theorem commit_sq (m : MicroProgram) (s : State) : (commit m s).sq = .idle := by
  simp [commit]

/-- `Deselect`, then the commit; the operation is over (R83, R89). -/
theorem runSteps_finish (h : s.sq = .finish) (hd : (s.answerAt 0).done = true) (n : Nat) :
    runSteps m (n + 1) s = commit m s.closed := by
  rw [← runSteps_idle (m := m) (commit_sq m s.closed) n]
  simp [runSteps, advance, h, currentPrim, primitive, hd, afterPrim]

/-- The commit of a failed frame (R89): TransportFailure, no register written. -/
theorem commit_failed (h : s.fail = true) : commit m s = (s.respond .transportFailure).release := by
  simp [commit, h, State.raise]

/-- The commit of a frame that went through (R89): the operation's own. -/
theorem commit_good (h : s.fail = false) : commit m s = (m.commit s).release := by
  simp [commit, h]

/-! ### Whole frames, every primitive completed and successful -/

section
variable (hs : s.sq = .select)
include hs

/-- An S1 frame that goes through (R52, R84). -/
theorem runSteps_s1 (hf : m.format = .s1) (h : ∀ k, k < 3 → (s.answerAt k).done = true ∧ (s.answerAt k).ok = true) :
    runSteps m 6 s = commit m (((s.opened.goto .b0).sent (m.cmd s.cfg)).goto .finish).closed := by
  rw [runSteps_select hs (h 0 (by omega)).1, runSteps_b0 rfl (by simpa using (h 1 (by omega)).1),
    if_pos (by simpa using (h 1 (by omega)).2), runSteps_finish (by simp [hf, nextSq]) (by simpa using (h 2 (by omega)).1)]
  simp [hf, nextSq]

/-- A W2 frame that goes through (R42, R52, R84). -/
theorem runSteps_w2 (hf : m.format = .w2) (h : ∀ k, k < 4 → (s.answerAt k).done = true ∧ (s.answerAt k).ok = true) :
    runSteps m 6 s =
      commit m (((((s.opened.goto .b0).sent (m.cmd s.cfg)).goto .b1).sent s.d).goto .finish).closed := by
  rw [runSteps_select hs (h 0 (by omega)).1, runSteps_b0 rfl (by simpa using (h 1 (by omega)).1),
    if_pos (by simpa using (h 1 (by omega)).2),
    runSteps_b1_write hf (by simp [hf, nextSq]) (by simpa using (h 2 (by omega)).1),
    if_pos (by simpa using (h 2 (by omega)).2), runSteps_finish rfl (by simpa using (h 3 (by omega)).1)]
  simp [hf, nextSq]

/-- An R4 frame that goes through (R43, R52, R84). -/
theorem runSteps_r4 (hf : m.format = .r4) (h : ∀ k, k < 6 → (s.answerAt k).done = true ∧ (s.answerAt k).ok = true) :
    ∃ u v : State,
      u = (((s.opened.goto .b0).sent (m.cmd s.cfg)).goto .b1).sent s.cfg.dummyByte ∧
      v = ((u.goto .b2).gotten.setHi (u.goto .b2).received).goto .b3 ∧
      runSteps m 6 s = commit m ((v.gotten.setLo v.received).goto .finish).closed := by
  refine ⟨_, _, rfl, rfl, ?_⟩
  rw [runSteps_select hs (h 0 (by omega)).1, runSteps_b0 rfl (by simpa using (h 1 (by omega)).1),
    if_pos (by simpa using (h 1 (by omega)).2),
    runSteps_b1_read hf (by simp [hf, nextSq]) (by simpa using (h 2 (by omega)).1),
    if_pos (by simpa using (h 2 (by omega)).2),
    runSteps_b2 hf rfl (by simpa using (h 3 (by omega)).1), if_pos (by simpa using (h 3 (by omega)).2),
    runSteps_b3 hf rfl (by simpa using (h 4 (by omega)).1), if_pos (by simpa using (h 4 (by omega)).2),
    runSteps_finish rfl (by simpa using (h 5 (by omega)).1)]
  simp [hf, nextSq]

end

/-! ### Whole operations -/

/-- An idle block takes a request (R83); a busy one does not (R87). -/
theorem runRequest_idle (h : s.sq = .idle) (op : BitVec 3) (arg : Byte) :
    runRequest m op arg s = .next (runSteps m 6 (runCheck m (s.accept op arg))) := by
  rw [runRequest, if_pos h, runSteps_check rfl]

theorem runRequest_busy (h : s.sq ≠ .idle) (op : BitVec 3) (arg : Byte) : runRequest m op arg s = .next s := by
  rw [runRequest, if_neg h]

/-- The peer takes a frame from the bus port while the block is idle, and only then (log entry 11). -/
theorem runFrame_idle (h : s.sq = .idle) (f : Peer → Peer) (reply : List Byte) :
    runFrame f reply s = .next { s with rspValid := false, reply := reply, peer := f s.peer } := by
  rw [runFrame, if_pos h]

theorem runFrame_busy (h : s.sq ≠ .idle) (f : Peer → Peer) (reply : List Byte) : runFrame f reply s = .next s := by
  rw [runFrame, if_neg h]

/-- What CHECK comes to (R83). -/
theorem runCheck_reject {st : Status} (h : m.check s.cfg s.arg = .reject st) :
    runCheck m s = (s.respond st).release := by
  simp [runCheck, h, State.raise]

theorem runCheck_plain (h : m.check s.cfg s.arg = .proceed none) : runCheck m s = s.goto .select := by
  simp [runCheck, h]

theorem runCheck_data {d : Byte} (h : m.check s.cfg s.arg = .proceed (some d)) :
    runCheck m s = (s.setD d).goto .select := by
  simp [runCheck, h]

end Sys2Proof.Machine
end

