-- ==== Sys2Proof/Laws/Frames.lean ====
section
/-! SUPPORT. What a whole frame leaves, in closed form, when the transport completes and confirms it; and what that means for
the registers of the peer. -/

namespace Sys2Proof.Machine

/-- The peer of `s` after `f`, if it is what answers. -/
def State.peerAfter (s : State) (f : Peer → Peer) : Peer :=
  match s.link with
  | .free => s.peer
  | .reference => f s.peer

/-- The block after the primitives of a frame, before the commit. -/
def State.framed (s : State) (n : Nat) (events : List Event) (p : Peer) : State :=
  { s with sq := .finish, sel := false, tin := s.tin.drop n, tick := s.tick + n, trace := s.trace ++ events, peer := p }

variable {m : MicroProgram} {s : State}

theorem Lucky_iff {n : Nat} : s.Lucky n ↔ ∀ k, k < n → (s.answerAt k).done = true ∧ (s.answerAt k).ok = true := Iff.rfl

/-- A one-byte frame that goes through, up to its commit (R52, R84, R89). -/
theorem run_s1 (hs : s.sq = .select) (hf : m.format = .s1) (hn : s.fail = false) (hl : s.Lucky 3) :
    runSteps m 6 s = (m.commit (s.framed 3 [.selected, .wrote (m.cmd s.cfg) true, .deselected]
      (s.peerAfter (Peer.stepFrame s.cfg (m.cmd s.cfg))))).release := by
  have h1 := (hl 1 (by omega)).2
  rw [runSteps_s1 hs hf hl, commit_good (by simpa using hn)]
  congr 2
  unfold State.framed State.peerAfter
  cases hk : s.link <;> apply State.ext <;> simp [h1, hk, Peer.stepFrame, ← List.drop_one, List.drop_drop]

/-- A Write frame that goes through, up to its commit (R42, R52, R84, R89). -/
theorem run_w2 (hs : s.sq = .select) (hf : m.format = .w2) (hn : s.fail = false) (hl : s.Lucky 4) :
    runSteps m 6 s = (m.commit (s.framed 4 [.selected, .wrote (m.cmd s.cfg) true, .wrote s.d true, .deselected]
      (s.peerAfter (Peer.writeFrame s.cfg (m.cmd s.cfg) s.d)))).release := by
  have h1 := (hl 1 (by omega)).2
  have h2 := (hl 2 (by omega)).2
  rw [runSteps_w2 hs hf hl, commit_good (by simpa using hn)]
  congr 2
  unfold State.framed State.peerAfter
  cases hk : s.link <;> apply State.ext <;> simp [h1, h2, hk, Peer.writeFrame, ← List.drop_one, List.drop_drop]

/-- The bytes a Read frame gets, the high one first (R33, R43). -/
def State.highByte (s : State) (cmd : Byte) : Byte :=
  match s.link with
  | .free => (s.answerAt 3).data
  | .reference => (s.peer.asked s.cfg cmd).readByte s.cfg

def State.lowByte (s : State) (cmd : Byte) : Byte :=
  match s.link with
  | .free => (s.answerAt 4).data
  | .reference => ((s.peer.asked s.cfg cmd).afterRead s.cfg).readByte s.cfg

/-- A Read frame that goes through, up to its commit (R43, R52, R84, R89). -/
theorem run_r4 (hs : s.sq = .select) (hf : m.format = .r4) (hn : s.fail = false) (hl : s.Lucky 6) :
    runSteps m 6 s = (m.commit
      { (s.framed 6 (readEvents s.cfg (m.cmd s.cfg) (s.highByte (m.cmd s.cfg)) (s.lowByte (m.cmd s.cfg)))
          (s.peerAfter (Peer.readFrame s.cfg (m.cmd s.cfg)))) with
        hi := s.highByte (m.cmd s.cfg), lo := s.lowByte (m.cmd s.cfg) }).release := by
  have h1 := (hl 1 (by omega)).2
  have h2 := (hl 2 (by omega)).2
  have h3 := (hl 3 (by omega)).2
  have h4 := (hl 4 (by omega)).2
  obtain ⟨u, v, rfl, rfl, h⟩ := runSteps_r4 hs hf hl
  rw [h, commit_good (by simpa using hn)]
  congr 2
  unfold State.framed State.peerAfter readEvents State.highByte State.lowByte
  cases hk : s.link <;> apply State.ext <;>
    simp [h1, h2, h3, h4, hk, State.received, Peer.readFrame, Peer.asked, ← List.drop_one, List.drop_drop]

/-! ### The registers of the peer after a frame -/

/-- A Write frame stores its data byte at its register and nowhere else (R42, R46). -/
theorem stored_write {c : Config} (hc : c.wf) (q : Peer) (addr : RegAddr) (dx : BitVec 2) (v : Byte) :
    q.Stored addr v (q.writeFrame c (busByte addr c.cmdWrite dx) v) := by
  rw [peer_write_frame _ hc]
  exact ⟨get_put_same q addr v, fun k hk => by simp [read_put, hk]⟩

/-- An Increment frame steps its register and no other (R45). -/
theorem stored_increment (c : Config) (q : Peer) (addr : RegAddr) (dx : BitVec 2) :
    q.Stored addr (deviceUp (q.get addr)) (q.stepFrame c (busByte addr c.cmdIncrement dx)) := by
  rw [Peer.Stored, get_congr (peer_increment_frame q addr dx), peer_increment_frame, deviceUp]
  split
  · exact ⟨get_put_same .., fun k hk => by simp [read_put, hk]⟩
  · exact ⟨rfl, fun _ _ => rfl⟩

/-- A Decrement frame steps its register and no other (R45). -/
theorem stored_decrement {c : Config} (hc : c.wf) (q : Peer) (addr : RegAddr) (dx : BitVec 2) :
    q.Stored addr (deviceDown (q.get addr)) (q.stepFrame c (busByte addr c.cmdDecrement dx)) := by
  rw [Peer.Stored, get_congr (peer_decrement_frame q hc addr dx), peer_decrement_frame _ hc, deviceDown]
  split
  · exact ⟨get_put_same .., fun k hk => by simp [read_put, hk]⟩
  · exact ⟨rfl, fun _ _ => rfl⟩

/-- What holds of the peer after `f` holds of the peer of `s`, if it is what answers. -/
theorem storedAt_of {addr : RegAddr} {v : Byte} {f : Peer → Peer} (h : s.peer.Stored addr v (f s.peer)) :
    s.StoredAt addr v (s.peerAfter f) := by
  unfold State.StoredAt State.peerAfter
  cases s.link
  · rfl
  · exact h

/-- A Read frame stores nothing (R45 to R47). -/
theorem storedNothing_read (hc : s.cfg.wf) (addr : RegAddr) (dx : BitVec 2) :
    s.StoredNothing (s.peerAfter (Peer.readFrame s.cfg (busByte addr s.cfg.cmdRead dx))) := by
  unfold State.StoredNothing State.peerAfter
  cases s.link
  · rfl
  · intro k; simp [peer_read_frame _ hc]

/-- The two bytes of a Read frame (R43, R47). -/
theorem response_read (hc : s.cfg.wf) (addr : RegAddr) (dx : BitVec 2) :
    s.Response addr (s.highByte (busByte addr s.cfg.cmdRead dx)) (s.lowByte (busByte addr s.cfg.cmdRead dx)) := by
  have h := peer_read_response s.peer hc addr dx
  simp only [Peer.response, List.cons.injEq, and_true] at h
  unfold State.Response State.highByte State.lowByte
  cases s.link
  · exact ⟨rfl, rfl⟩
  · exact h

end Sys2Proof.Machine
end

