-- ==== Sys2Proof/Laws/Runs.lean ====
section
/-! SUPPORT. What any run of the sequencer can come to, whatever the transport answers: one classification of the states
inside a frame, kept by every step, and the two ways a run can end. A run begins anywhere past CHECK: at
`Select`, or where an earlier step left the operation waiting. -/

namespace Sys2Proof.Machine

/-- `t` holds what `s` holds in every field that no step between CHECK and commit writes (R89). -/
structure Unmoved (s t : State) : Prop where
  cfg      : t.cfg = s.cfg
  w0       : t.w0 = s.w0
  tc       : t.tc = s.tc
  op       : t.op = s.op
  arg      : t.arg = s.arg
  d        : t.d = s.d
  status   : t.status = s.status
  rdata    : t.rdata = s.rdata
  draws    : t.draws = s.draws
  rspValid : t.rspValid = s.rspValid
  rst      : t.rst = s.rst
  pending  : t.pending = s.pending
  link     : t.link = s.link
  reply    : t.reply = s.reply

theorem Unmoved.refl (s : State) : Unmoved s s := ⟨rfl, rfl, rfl, rfl, rfl, rfl, rfl, rfl, rfl, rfl, rfl, rfl, rfl, rfl⟩

theorem Unmoved.trans {s t u : State} (h : Unmoved s t) (k : Unmoved t u) : Unmoved s u :=
  ⟨k.cfg.trans h.cfg, k.w0.trans h.w0, k.tc.trans h.tc, k.op.trans h.op, k.arg.trans h.arg, k.d.trans h.d,
    k.status.trans h.status, k.rdata.trans h.rdata, k.draws.trans h.draws, k.rspValid.trans h.rspValid,
    k.rst.trans h.rst, k.pending.trans h.pending, k.link.trans h.link,
    k.reply.trans h.reply⟩

theorem unmoved_consume (s : State) : Unmoved s s.consume := by constructor <;> rfl
theorem unmoved_goto (s : State) (q : Sq) : Unmoved s (s.goto q) := by constructor <;> rfl
theorem unmoved_abort (s : State) : Unmoved s s.abort := by constructor <;> rfl
theorem unmoved_setHi (s : State) (v : Byte) : Unmoved s (s.setHi v) := by constructor <;> rfl
theorem unmoved_setLo (s : State) (v : Byte) : Unmoved s (s.setLo v) := by constructor <;> rfl
theorem unmoved_opened (s : State) : Unmoved s s.opened := by constructor <;> simp
theorem unmoved_closed (s : State) : Unmoved s s.closed := by constructor <;> simp
theorem unmoved_sent (s : State) (b : Byte) : Unmoved s (s.sent b) := by constructor <;> simp
theorem unmoved_gotten (s : State) : Unmoved s s.gotten := by constructor <;> simp

/-- How many byte primitives a frame has done when it stands at a step without a failure (R52, R84). -/
def bytesDone (f : Format) : Sq → Nat
  | .idle => 0
  | .check => 0
  | .select => 0
  | .b0 => 0
  | .b1 => 1
  | .b2 => 2
  | .b3 => 3
  | .finish => match f with | .s1 => 1 | .w2 => 2 | .r4 => 4

/-- Inside the bracket with no byte done, the command byte is next (R90). -/
theorem b0_of_bytesDone {f : Format} {q : Sq} (h : q.inBracket = true) (h0 : bytesDone f q = 0) : q = .b0 := by
  cases q <;> cases f <;> simp_all [Sq.inBracket, bytesDone]

/-- Each byte step of a frame does one byte primitive (R84, R90). -/
theorem bytesDone_next {f : Format} {q : Sq} (h : q.inFormat f = true) (hb : q.inBracket = true) (hne : q ≠ .finish) :
    bytesDone f (nextSq f q) = bytesDone f q + 1 := by
  cases q <;> cases f <;> simp_all [Sq.inFormat, Sq.inBracket, nextSq, bytesDone]

/-- `s` stands somewhere in the frame of `m`: past CHECK, `sel` set inside the bracket only, at its `Deselect` if a byte failed. -/
structure Underway (m : MicroProgram) (s : State) : Prop where
  past     : s.sq.pastCheck = true
  in_frame : s.sq.inFormat m.format = true
  bracket  : s.sel = s.sq.inBracket
  failed   : s.fail = true → s.sq = .finish

/-- The primitives a bracket opens with, seen from `s`: none, where it is open already. -/
def State.opening (s : State) : List Event := if s.sel then [] else [.selected]

/-- `t` stands inside the frame of `m`, its bracket open, a run from `s` having done the byte primitives `bytes`. -/
structure Inside (m : MicroProgram) (s t : State) (bytes : List Event) : Prop where
  unmoved  : Unmoved s t
  format   : t.sq.inFormat m.format = true
  bracket  : t.sel = true ∧ t.sq.inBracket = true
  trace    : t.trace = s.trace ++ (s.opening ++ bytes)
  isByte   : ∀ e ∈ bytes, e.isByte = true
  first    : bytesDone m.format s.sq = 0 → ∀ e rest, bytes = e :: rest → ∃ ok, e = .wrote (m.cmd s.cfg) ok
  good     : t.fail = false → s.fail = false ∧ (∀ e ∈ bytes, e.failed = false) ∧
    bytesDone m.format t.sq = bytesDone m.format s.sq + bytes.length
  bad      : t.fail = true → t.sq = .finish ∧
    (s.fail = true ∧ bytes = [] ∨
      s.fail = false ∧ ∃ before e, bytes = before ++ [e] ∧ e.failed = true ∧ ∀ e' ∈ before, e'.failed = false)
  stood    : s.sq = .finish → t.sq = .finish ∧ t.lo = s.lo
  low      : s.sq ≠ .finish → m.format = .r4 → t.fail = false → t.sq = .finish →
    ∃ before b, bytes = before ++ [.got b true] ∧ t.lo = b

/-- Where a run that began at `s` can stand: at `Select`, inside its bracket, or past its commit. -/
def Standing (m : MicroProgram) (s t : State) : Prop :=
  (Unmoved s t ∧ s.sq = .select ∧ t.sq = .select ∧ t.sel = s.sel ∧ t.fail = false ∧ t.trace = s.trace) ∨
  (∃ bytes, Inside m s t bytes) ∨
  (∃ u bytes, Inside m s u bytes ∧ u.sq = .finish ∧ t = commit m u.closed)

/-- One more byte primitive that succeeded. -/
theorem Inside.next {m : MicroProgram} {s t u : State} {bytes : List Event} {e : Event} (h : Inside m s t bytes)
    (hu : Unmoved t u) (hsel : u.sel = true) (hsq : u.sq = nextSq m.format t.sq) (htr : u.trace = t.trace ++ [e])
    (hb : e.isByte = true) (hf : t.fail = false) (huf : u.fail = false) (he : e.failed = false) (hne : t.sq ≠ .finish)
    (hfirst : t.sq = .b0 → ∃ ok, e = .wrote (m.cmd s.cfg) ok) (hlow : t.sq = .b3 → ∃ b, e = .got b true ∧ u.lo = b) :
    Inside m s u (bytes ++ [e]) := by
  obtain ⟨hsf, hgood, hlen⟩ := h.good hf
  have hform := h.format
  have hbr := h.bracket.2
  refine ⟨h.unmoved.trans hu, ?_, ⟨hsel, ?_⟩, by rw [htr, h.trace]; simp, ?_, ?_, fun _ => ⟨hsf, ?_, ?_⟩, ?_,
    fun hs => absurd (h.stood hs).1 hne, fun _ hm _ huq => ?_⟩
  · rw [hsq]; cases hq : t.sq <;> cases hm : m.format <;> simp_all [nextSq, Sq.inFormat]
  · rw [hsq]; cases hq : t.sq <;> cases hm : m.format <;> simp_all [nextSq, Sq.inBracket]
  · simpa [or_imp, forall_and] using ⟨h.isByte, hb⟩
  · intro h0 e' rest heq
    cases bytes with
    | nil =>
      have : t.sq = .b0 := b0_of_bytesDone hbr (by simpa [h0] using hlen)
      simp only [List.nil_append, List.cons.injEq] at heq
      exact heq.1 ▸ hfirst this
    | cons e0 r0 =>
      simp only [List.cons_append, List.cons.injEq] at heq
      exact heq.1 ▸ h.first h0 e0 r0 rfl
  · simpa [or_imp, forall_and] using ⟨hgood, he⟩
  · rw [List.length_append, ← Nat.add_assoc, ← hlen, hsq]
    exact bytesDone_next hform hbr hne
  · simp [huf]
  · have hb3 : t.sq = .b3 := by
      rw [hsq, hm] at huq
      cases hq : t.sq <;> simp_all [nextSq, Sq.inBracket]
    obtain ⟨b, he, hlo⟩ := hlow hb3
    exact ⟨bytes, b, by rw [he], hlo⟩

/-- One more byte primitive that failed: the frame goes straight to `Deselect` (R85). -/
theorem Inside.stop {m : MicroProgram} {s t u : State} {bytes : List Event} {e : Event} (h : Inside m s t bytes)
    (hu : Unmoved t u) (hsel : u.sel = true) (hsq : u.sq = .finish) (htr : u.trace = t.trace ++ [e])
    (hb : e.isByte = true) (hf : t.fail = false) (huf : u.fail = true) (he : e.failed = true) (hne : t.sq ≠ .finish)
    (hfirst : t.sq = .b0 → ∃ ok, e = .wrote (m.cmd s.cfg) ok) : Inside m s u (bytes ++ [e]) := by
  obtain ⟨hsf, hgood, hlen⟩ := h.good hf
  have hbr := h.bracket.2
  refine ⟨h.unmoved.trans hu, by simp [hsq, Sq.inFormat], ⟨hsel, by simp [hsq, Sq.inBracket]⟩,
    by rw [htr, h.trace]; simp, ?_, ?_, by simp [huf], fun _ => ⟨hsq, .inr ⟨hsf, bytes, e, rfl, he, hgood⟩⟩,
    fun hs => absurd (h.stood hs).1 hne, by simp [huf]⟩
  · simpa [or_imp, forall_and] using ⟨h.isByte, hb⟩
  · intro h0 e' rest heq
    cases bytes with
    | nil =>
      have : t.sq = .b0 := b0_of_bytesDone hbr (by simpa [h0] using hlen)
      simp only [List.nil_append, List.cons.injEq] at heq
      exact heq.1 ▸ hfirst this
    | cons e0 r0 =>
      simp only [List.cons_append, List.cons.injEq] at heq
      exact heq.1 ▸ h.first h0 e0 r0 rfl

/-- What a byte primitive does to the block, whichever it is: the event it adds, and the `ok` bit in it. -/
theorem byte_primitive {m : MicroProgram} {t u : State} {p : Prim} {ok : Bool} {b : Byte}
    (hp : bytePrim m t t.sq = some p) (hr : primitive p t = .done u ok b) (hd : (t.answerAt 0).done = true) :
    Unmoved t u ∧ u.sel = t.sel ∧ u.fail = t.fail ∧
      ∃ e : Event, u.trace = t.trace ++ [e] ∧ e.isByte = true ∧ e.failed = !ok ∧
        (t.sq = .b0 → e = .wrote (m.cmd t.cfg) ok) ∧ (t.sq = .b3 → e = .got b ok) := by
  rcases primitive_cases t p with ⟨h, -⟩ | ⟨-, ⟨rfl, -⟩ | ⟨rfl, -⟩ | ⟨w, rfl, h⟩ | ⟨rfl, h⟩⟩
  · simp [hd] at h
  · cases hq : t.sq <;> cases hm : m.format <;> simp_all [bytePrim]
  · cases hq : t.sq <;> cases hm : m.format <;> simp_all [bytePrim]
  · rw [hr] at h
    obtain ⟨rfl, rfl, rfl⟩ := Reply.done.inj h
    refine ⟨unmoved_sent t w, by simp, by simp, _, sent_trace t w, rfl, rfl, fun hq => ?_, fun hq => ?_⟩
    · simp only [hq, bytePrim, Option.some.injEq, Prim.writeByte.injEq] at hp
      rw [hp]
    · simp [hq, bytePrim] at hp
  · rw [hr] at h
    obtain ⟨rfl, rfl, rfl⟩ := Reply.done.inj h
    refine ⟨unmoved_gotten t, by simp, by simp, _, gotten_trace t, rfl, rfl, fun hq => ?_, fun _ => rfl⟩
    simp [hq, bytePrim] at hp

/-- The response latches are the only registers a byte touches (R16). -/
theorem latchByte_fields (q : Sq) (b : Byte) (t : State) :
    Unmoved t (latchByte q b t) ∧ (latchByte q b t).sel = t.sel ∧ (latchByte q b t).fail = t.fail ∧
      (latchByte q b t).trace = t.trace := by
  unfold latchByte
  split
  · exact ⟨unmoved_setHi t b, rfl, rfl, rfl⟩
  · exact ⟨unmoved_setLo t b, rfl, rfl, rfl⟩
  · exact ⟨Unmoved.refl t, rfl, rfl, rfl⟩

/-- A step inside the frame stays inside it, unless it is `Deselect`, which ends it. -/
theorem inside_advance {m : MicroProgram} {s t t' : State} {bytes : List Event} (h : Inside m s t bytes)
    (ha : advance m t = .moved t' ∨ advance m t = .halted t') : Standing m s t' := by
  have hbr := h.bracket.2
  rcases advance_cases m t with ⟨hq, -⟩ | ⟨hq, -⟩ | ⟨-, -, hcase⟩
  · simp [hq, Sq.inBracket] at hbr
  · simp [hq, Sq.inBracket] at hbr
  · rcases hcase with ⟨hp, -⟩ | ⟨p, -, -, hadv⟩ | ⟨p, u, ok, b, hp, hd, hr, hadv⟩
    · exfalso
      have hform := h.format
      cases hq : t.sq <;> cases hm : m.format <;> simp_all [currentPrim, bytePrim, Sq.inFormat, Sq.inBracket]
    · simp only [hadv, reduceCtorEq, Advance.halted.injEq, false_or] at ha
      subst ha
      exact .inr (.inl ⟨bytes, h.unmoved.trans (unmoved_consume t), h.format, h.bracket, h.trace, h.isByte, h.first,
        h.good, h.bad, h.stood, h.low⟩)
    · simp only [hadv, reduceCtorEq, Advance.moved.injEq, or_false] at ha
      subst ha
      by_cases hfin : t.sq = .finish
      · refine .inr (.inr ⟨t, bytes, h, hfin, ?_⟩)
        have : u = t.closed := by
          simp only [hfin, currentPrim, Option.some.injEq] at hp
          subst hp
          simp only [primitive, hd, if_true, Reply.done.injEq] at hr
          exact hr.1.symm
        simp [afterPrim, hfin, this]
      · have hp' : bytePrim m t t.sq = some p := by
          cases hq : t.sq <;> simp_all [currentPrim, Sq.inBracket]
        have hgood : t.fail = false := by
          cases hf : t.fail
          · rfl
          · exact absurd (h.bad hf).1 hfin
        obtain ⟨hu, hsel, hfail, e, htr, hbyte, hef, hfst, hgot⟩ := byte_primitive hp' hr hd
        obtain ⟨hl, hlsel, hlfail, hltr⟩ := latchByte_fields t.sq b u
        have hcmd : m.cmd t.cfg = m.cmd s.cfg := by rw [h.unmoved.cfg]
        have hfirst : t.sq = .b0 → ∃ ok, e = .wrote (m.cmd s.cfg) ok := fun hq => ⟨ok, by rw [hfst hq, hcmd]⟩
        cases ok with
        | true =>
          simp only [afterPrim, hfin, if_false, if_true]
          exact .inr (.inl ⟨_, h.next ((hu.trans hl).trans (unmoved_goto _ _)) (by simp [hlsel, hsel, h.bracket.1])
            (by simp) (by simp [hltr, htr]) hbyte hgood (by simp [hlfail, hfail, hgood]) (by simp [hef]) hfin hfirst
            fun hq => ⟨b, hgot hq, by simp [hq, latchByte]⟩⟩)
        | false =>
          simp only [afterPrim, hfin, if_false, Bool.false_eq_true]
          exact .inr (.inl ⟨_, h.stop ((hu.trans hl).trans (unmoved_abort _)) (by simp [hlsel, hsel, h.bracket.1])
            (by simp) (by simp [hltr, htr]) hbyte hgood (by simp) (by simp [hef]) hfin hfirst⟩)

/-- Any number of steps from inside the frame leaves the block at `Select`, inside its bracket, or past its commit. -/
theorem run_standing {m : MicroProgram} {s : State} (hs : Underway m s) (n : Nat) : Standing m s (runSteps m n s) := by
  have h0 : Standing m s s := by
    cases hsel : s.sel
    · have hq : s.sq = .select := by
        have h1 := hs.past; have h2 := hs.bracket
        cases hq : s.sq <;> simp_all [Sq.inBracket, Sq.pastCheck]
      have hf : s.fail = false := by
        cases hf : s.fail
        · rfl
        · simp [hs.failed hf] at hq
      exact .inl ⟨Unmoved.refl s, hq, hq, rfl, hf, rfl⟩
    · exact .inr (.inl ⟨[], Unmoved.refl s, hs.in_frame, ⟨hsel, hs.bracket ▸ hsel⟩, by simp [State.opening, hsel], by simp,
        by simp, fun h => by simp [h], fun h => ⟨hs.failed h, .inl ⟨h, rfl⟩⟩, fun h => ⟨h, rfl⟩, fun h _ _ hf => absurd hf h⟩)
  refine runSteps_induct (P := Standing m s) ?_ n s h0
  rintro t t' (⟨hu, hsq, hq, hsel, hfail, htr⟩ | ⟨bytes, h⟩ | ⟨u, bytes, h, hq, rfl⟩) ha
  · rcases advance_cases m t with ⟨h, -⟩ | ⟨h, -⟩ | ⟨-, -, ⟨h, -⟩ | ⟨p, -, -, hadv⟩ | ⟨p, u, ok, b, hp, hd, hr, hadv⟩⟩
    · simp [hq] at h
    · simp [hq] at h
    · simp [currentPrim, hq] at h
    · simp only [hadv, reduceCtorEq, Advance.halted.injEq, false_or] at ha
      subst ha
      exact .inl ⟨hu.trans (unmoved_consume t), hsq, hq, hsel, hfail, htr⟩
    · simp only [hadv, reduceCtorEq, Advance.moved.injEq, or_false] at ha
      subst ha
      simp only [currentPrim, hq, Option.some.injEq] at hp
      subst hp
      simp only [primitive, hd, if_true, Reply.done.injEq] at hr
      obtain ⟨rfl, rfl, rfl⟩ := hr
      have hs0 : s.sel = false := by rw [hs.bracket, hsq]; rfl
      have hf0 : s.fail = false := by
        cases hf : s.fail
        · rfl
        · simp [hs.failed hf] at hsq
      refine .inr (.inl ⟨[], ?_⟩)
      simp only [afterPrim, hq, reduceCtorEq, if_false, if_true, latchByte, nextSq]
      refine ⟨(hu.trans (unmoved_opened t)).trans (unmoved_goto _ _), by simp [Sq.inFormat], by simp [Sq.inBracket],
        by simp [htr, State.opening, hs0], by simp, by simp, fun _ => ⟨hf0, by simp, by simp [bytesDone, hsq]⟩,
        by simp [hfail], by simp [hsq], by simp⟩
  · exact inside_advance h ha
  · have : t' = commit m u.closed := by
      rcases advance_cases m (commit m u.closed) with ⟨-, h⟩ | ⟨h, -⟩ | ⟨h, -, -⟩
      · rcases ha with ha | ha <;> rw [h] at ha <;> simp_all
      · simp at h
      · simp at h
    exact .inr (.inr ⟨u, bytes, h, hq, this⟩)

/-- What a run has come to once the block is idle: the frame was closed and committed. -/
theorem run_committed {m : MicroProgram} {s : State} (hs : Underway m s) (n : Nat) (hidle : (runSteps m n s).sq = .idle) :
    ∃ u bytes, Inside m s u bytes ∧ u.sq = .finish ∧ runSteps m n s = commit m u.closed := by
  rcases run_standing hs n with ⟨-, -, h, -⟩ | ⟨bytes, h⟩ | h
  · simp [h] at hidle
  · have := h.bracket.2; simp [hidle, Sq.inBracket] at this
  · exact h

/-- What a run has come to while the block is busy: it stands somewhere in the frame, and no register has moved. -/
theorem run_waiting {m : MicroProgram} {s : State} (hs : Underway m s) (n : Nat) (hbusy : (runSteps m n s).sq ≠ .idle) :
    Unmoved s (runSteps m n s) ∧ Underway m (runSteps m n s) := by
  rcases run_standing hs n with ⟨hu, hsq, hq, hsel, hf, -⟩ | ⟨bytes, h⟩ | ⟨u, bytes, -, -, e⟩
  · refine ⟨hu, by simp [hq, Sq.pastCheck], by simp [hq, Sq.inFormat], ?_, by simp [hf]⟩
    rw [hsel, hs.bracket, hsq, hq]
  · have hb := h.bracket.2
    refine ⟨h.unmoved, ?_, h.format, by rw [h.bracket.1, hb], fun hf => (h.bad hf).1⟩
    cases hq : (runSteps m n s).sq <;> simp_all [Sq.pastCheck, Sq.inBracket]
  · rw [e] at hbusy; simp at hbusy

end Sys2Proof.Machine
end

