-- ==== Sys2Proof/Laws/Exec.lean ====
section
/-! SUPPORT. What `exec` and `step` can do, said once for all instructions: a host request runs the micro-program of its opcode, a
frame from the bus port reaches the peer, and a step is one of five things. -/

namespace Sys2Proof.Machine

/-- The request `{op, arg}` an instruction is, if it is one (R61). -/
def hostRequest : Instr → Option (BitVec 3 × Byte)
  | .wrw v => some (0#3, v)
  | .rdw x => some (1#3, x)
  | .inc x => some (2#3, x)
  | .dec x => some (3#3, x)
  | .wtc a w b xh xl => some (4#3, wtcArg a w b xh xl)
  | .ent x => some (5#3, x)
  | .dist x => some (6#3, x)
  | .reserved x => some (7#3, x)
  | .busWrite _ _ _ => none
  | .busIncrement _ _ => none
  | .busDecrement _ _ => none
  | .busRead _ _ => none
  | .busWrw _ => none
  | .busInc => none
  | .busDec => none
  | .busRdw => none
  | .busWtc _ => none

theorem isRequest_iff (i : Instr) : i.isRequest = true ↔ ∃ op arg, hostRequest i = some (op, arg) := by
  cases i <;> simp [Instr.isRequest, hostRequest]

/-! ### The micro-programs by opcode (R90) -/

@[simp] theorem requestProgram_wrw : requestProgram 0#3 = wrwProgram := rfl
@[simp] theorem requestProgram_rdw : requestProgram 1#3 = rdwProgram := rfl
@[simp] theorem requestProgram_inc : requestProgram 2#3 = incProgram := rfl
@[simp] theorem requestProgram_dec : requestProgram 3#3 = decProgram := rfl
@[simp] theorem requestProgram_wtc : requestProgram 4#3 = wtcProgram := rfl
@[simp] theorem requestProgram_ent : requestProgram 5#3 = entProgram := rfl
@[simp] theorem requestProgram_dist : requestProgram 6#3 = distProgram := rfl
@[simp] theorem requestProgram_reserved : requestProgram 7#3 = reservedProgram := rfl

/-- The eight opcodes (R61). -/
theorem opcode_cases (op : BitVec 3) :
    op = 0#3 ∨ op = 1#3 ∨ op = 2#3 ∨ op = 3#3 ∨ op = 4#3 ∨ op = 5#3 ∨ op = 6#3 ∨ op = 7#3 := by
  revert op; decide

/-- The program a block runs is fixed by the latched opcode (R16, R90). -/
theorem program_congr {s t : State} (h : t.op = s.op) : t.program = s.program := by
  unfold State.program; rw [h]

/-- A rejection at CHECK is a RangeViolation of WRW or an Unsupported terminal or reserved request (R160). -/
theorem check_reject {op : BitVec 3} {c : Config} {arg : Byte} {st : Status}
    (h : (requestProgram op).check c arg = .reject st) :
    (op = 0#3 ∧ c.variant = .B ∧ wiperMax < arg ∧ st = .rangeViolation) ∨
    ((terminalOp op = true ∧ c.variant = .A ∨ op = 7#3) ∧ st = .unsupported) := by
  rcases opcode_cases op with rfl | rfl | rfl | rfl | rfl | rfl | rfl | rfl <;>
    simp [wrwProgram, rdwProgram, incProgram, decProgram, wtcProgram, entProgram, distProgram, reservedProgram, memWrite,
      memRead, wrwCheck, terminalCheck, terminalOp] at h ⊢
  · split at h <;> simp_all
  all_goals first
    | exact h.symm
    | (split at h <;> simp_all)

/-- What a commit can write (R89): `W[0]`, `TC`, the result; its status is never TransportFailure. -/
theorem commit_fields (op : BitVec 3) (u : State) :
    let t := (requestProgram op).commit u
    t.cfg = u.cfg ∧ t.sq = u.sq ∧ t.op = u.op ∧ t.arg = u.arg ∧ t.d = u.d ∧ t.hi = u.hi ∧ t.lo = u.lo ∧ t.fail = u.fail ∧
    t.sel = u.sel ∧ t.rspValid = true ∧ t.rst = u.rst ∧ t.pending = u.pending ∧ t.tin = u.tin ∧ t.link = u.link ∧
    t.peer = u.peer ∧ t.reply = u.reply ∧ t.tick = u.tick ∧ t.trace = u.trace ∧ t.status ≠ .transportFailure := by
  rcases opcode_cases op with rfl | rfl | rfl | rfl | rfl | rfl | rfl | rfl <;>
    simp only [requestProgram_wrw, requestProgram_rdw, requestProgram_inc, requestProgram_dec, requestProgram_wtc,
      requestProgram_ent, requestProgram_dist, requestProgram_reserved, wrwProgram, rdwProgram, incProgram, decProgram,
      wtcProgram, entProgram, distProgram, reservedProgram, memWrite, memRead, wrwCommit, rdwCommit, incCommit, decCommit,
      terminalCommit, State.raise] <;>
    (try split) <;> simp

/-- The whole commit (R89) issues no primitive, closes the operation and gives the response; TransportFailure exactly when a byte
failed. -/
theorem commit_all (op : BitVec 3) (u : State) :
    let t := commit (requestProgram op) u
    t.cfg = u.cfg ∧ t.sq = .idle ∧ t.op = u.op ∧ t.arg = u.arg ∧ t.d = u.d ∧ t.hi = u.hi ∧ t.lo = u.lo ∧ t.fail = u.fail ∧
    t.sel = u.sel ∧ t.rspValid = true ∧ t.rst = u.rst ∧ t.pending = u.pending ∧ t.tin = u.tin ∧ t.link = u.link ∧
    t.peer = u.peer ∧ t.reply = u.reply ∧ t.tick = u.tick ∧ t.trace = u.trace ∧
    (t.status = .transportFailure ↔ u.fail = true) := by
  obtain ⟨h1, -, h3, h4, h5, h6, h7, h8, h9, h10, h11, h12, h13, h14, h15, h16, h17, h18, h19⟩ := commit_fields op u
  cases hf : u.fail
  · rw [commit_good hf]
    refine ⟨?_, ?_, ?_, ?_, ?_, ?_, ?_, ?_, ?_, ?_, ?_, ?_, ?_, ?_, ?_, ?_, ?_, ?_, ?_⟩ <;> simp [*]
  · rw [commit_failed hf]
    refine ⟨?_, ?_, ?_, ?_, ?_, ?_, ?_, ?_, ?_, ?_, ?_, ?_, ?_, ?_, ?_, ?_, ?_, ?_, ?_⟩ <;> simp [*]

/-! ### What an instruction runs -/

/-- A host request runs the micro-program of its opcode (R83, R90). -/
theorem exec_request {i : Instr} {op : BitVec 3} {arg : Byte} (h : hostRequest i = some (op, arg)) (s : State) :
    exec i s = runRequest (requestProgram op) op arg s := by
  cases i <;> simp only [hostRequest, Option.some.injEq, Prod.mk.injEq, reduceCtorEq] at h <;> obtain ⟨rfl, rfl⟩ := h <;> rfl

/-- Every other instruction is a frame that reaches the peer, whose registers stay in canonical form (log entry 11). -/
theorem exec_frame {i : Instr} (h : hostRequest i = none) (s : State) :
    ∃ (f : Peer → Peer) (reply : List Byte), (∀ q : Peer, Memory.wf q.dev → Memory.wf (f q).dev) ∧
      exec i s = runFrame f reply s := by
  have hw : ∀ c b v (q : Peer), Memory.wf q.dev → Memory.wf (q.writeFrame c b v).dev :=
    fun c b v q hq => write_wf (c := c) _ (write_wf (c := c) q.select hq b) v
  have hs : ∀ c b (q : Peer), Memory.wf q.dev → Memory.wf (q.stepFrame c b).dev := fun c b q hq =>
    write_wf (c := c) q.select hq b
  have hr : ∀ c b (q : Peer), Memory.wf q.dev → Memory.wf (q.readFrame c b).dev := fun c b q hq => by
    simpa [Peer.readFrame, Peer.asked] using write_wf (c := c) _ (write_wf (c := c) q.select hq b) c.dummyByte
  cases i <;> simp only [hostRequest, reduceCtorEq] at h
  · exact ⟨_, _, hw _ _ _, rfl⟩
  · exact ⟨_, _, hs _ _, rfl⟩
  · exact ⟨_, _, hs _ _, rfl⟩
  · exact ⟨_, _, hr _ _, rfl⟩
  · exact ⟨_, _, hw _ _ _, rfl⟩
  · exact ⟨_, _, hs _ _, rfl⟩
  · exact ⟨_, _, hs _ _, rfl⟩
  · exact ⟨_, _, hr _ _, rfl⟩
  · exact ⟨_, _, hw _ _ _, rfl⟩

/-- A busy block takes no instruction (R87). -/
theorem exec_busy (i : Instr) {s : State} (h : s.sq ≠ .idle) : exec i s = .next s := by
  cases hr : hostRequest i with
  | none => obtain ⟨f, reply, -, e⟩ := exec_frame hr s; rw [e, runFrame_busy h]
  | some q => rw [exec_request hr, runRequest_busy h]

/-- No instruction ends in a fault or a refusal. -/
theorem exec_next (i : Instr) (s : State) : ∃ t, exec i s = .next t := by
  by_cases h : s.sq = .idle
  · cases hr : hostRequest i with
    | none => obtain ⟨f, reply, -, e⟩ := exec_frame hr s; exact ⟨_, by rw [e, runFrame_idle h]⟩
    | some q => exact ⟨_, by rw [exec_request hr, runRequest_idle h]⟩
  · exact ⟨_, exec_busy i h⟩

/-! ### Runs from CHECK -/

/-- The state in which the frame of `s` begins, its CHECK having passed: only `sq` and `d` are written (R83). -/
def begun (data : Option Byte) (s : State) : State := (s.setD (data.getD s.d)).goto .select

/-- What a run from CHECK comes to (R83): a rejection, or a run of the frame from `Select`. -/
theorem run_check {m : MicroProgram} {s : State} (hq : s.sq = .check) (n : Nat) :
    (∃ st, m.check s.cfg s.arg = .reject st ∧ runSteps m (n + 1) s = (s.respond st).release) ∨
    (∃ data, m.check s.cfg s.arg = .proceed data ∧ runSteps m (n + 1) s = runSteps m n (begun data s)) := by
  rw [runSteps_check hq]
  cases hc : m.check s.cfg s.arg with
  | reject st => exact .inl ⟨st, rfl, by rw [runCheck_reject hc, runSteps_idle rfl]⟩
  | proceed data =>
    refine .inr ⟨data, rfl, ?_⟩
    cases data with
    | none => rw [runCheck_plain hc]; rfl
    | some v => rw [runCheck_data hc]; rfl

/-- A frame that begins is under way. -/
theorem underway_begun {m : MicroProgram} {s : State} (data : Option Byte) (hsel : s.sel = false) (hf : s.fail = false) :
    Underway m (begun data s) :=
  ⟨rfl, rfl, hsel, fun h => by simp [begun, hf] at h⟩

/-! ### Whole requests, every primitive completed and confirmed -/

section
variable {op : BitVec 3} {arg : Byte} {s : State} (h : s.sq = .idle)
include h

/-- A request rejected at CHECK: its latches and its result (R83, R89). -/
theorem request_rejected {st : Status} (hc : (requestProgram op).check s.cfg arg = .reject st) :
    runRequest (requestProgram op) op arg s = .next ((s.accept op arg).respond st).release := by
  rw [runRequest_idle h, runCheck_reject hc, runSteps_idle rfl]

/-- A one-byte request that goes through: its commit after its frame. -/
theorem request_s1 (hf : (requestProgram op).format = .s1) (hc : (requestProgram op).check s.cfg arg = .proceed none)
    (hl : s.Lucky 3) :
    runRequest (requestProgram op) op arg s = .next ((requestProgram op).commit
      ((s.accept op arg).framed 3 [.selected, .wrote ((requestProgram op).cmd s.cfg) true, .deselected]
        (s.peerAfter (Peer.stepFrame s.cfg ((requestProgram op).cmd s.cfg))))).release := by
  rw [runRequest_idle h, runCheck_plain hc, run_s1 (s := (s.accept op arg).goto .select) rfl hf rfl hl]
  rfl

/-- A Write request that goes through: its commit after its frame. -/
theorem request_w2 {d : Byte} (hf : (requestProgram op).format = .w2)
    (hc : (requestProgram op).check s.cfg arg = .proceed (some d)) (hl : s.Lucky 4) :
    runRequest (requestProgram op) op arg s = .next ((requestProgram op).commit
      (((s.accept op arg).setD d).framed 4
        [.selected, .wrote ((requestProgram op).cmd s.cfg) true, .wrote d true, .deselected]
        (s.peerAfter (Peer.writeFrame s.cfg ((requestProgram op).cmd s.cfg) d)))).release := by
  rw [runRequest_idle h, runCheck_data hc, run_w2 (s := ((s.accept op arg).setD d).goto .select) rfl hf rfl hl]
  rfl

/-- A Read request that goes through: its commit after its frame. -/
theorem request_r4 (hf : (requestProgram op).format = .r4) (hc : (requestProgram op).check s.cfg arg = .proceed none)
    (hl : s.Lucky 6) :
    runRequest (requestProgram op) op arg s = .next ((requestProgram op).commit
      { ((s.accept op arg).framed 6
          (readEvents s.cfg ((requestProgram op).cmd s.cfg) (s.highByte ((requestProgram op).cmd s.cfg))
            (s.lowByte ((requestProgram op).cmd s.cfg)))
          (s.peerAfter (Peer.readFrame s.cfg ((requestProgram op).cmd s.cfg)))) with
        hi := s.highByte ((requestProgram op).cmd s.cfg),
        lo := s.lowByte ((requestProgram op).cmd s.cfg) }).release := by
  rw [runRequest_idle h, runCheck_plain hc, run_r4 (s := (s.accept op arg).goto .select) rfl hf rfl hl]
  rfl

end

/-! ### What a step is -/

/-- The state from which a step runs the sequencer: the block as it stands, if it is busy; the accepted request, if it is idle
and a request waits (R82, R83). -/
inductive Starts (s : State) : State → Prop where
  | busy (h : s.sq ≠ .idle) : Starts s s
  | idle (h : s.sq = .idle) (rest : List PortWord) (op : BitVec 3) (arg : Byte) : Starts s ((s.take rest).accept op arg)

theorem Starts.busy_sq {s u : State} (h : Starts s u) : u.sq ≠ .idle := by
  cases h
  · assumption
  · simp

/-- A step resets an idle block, waits, lets a frame from the bus port reach the peer, or runs the sequencer (R83, R87, R180;
log entries 8 to 11). -/
theorem step_cases {s t : State} (h : step s = .next t) :
    (s.rst = true ∧ s.sq = .idle ∧ t = s.afterReset) ∨
    (s.rst = false ∧ s.sq = .idle ∧ s.pending = [] ∧ t = s.wait) ∨
    (s.rst = false ∧ s.sq = .idle ∧ ∃ (rest : List PortWord) (f : Peer → Peer) (reply : List Byte),
      (∀ q : Peer, Memory.wf q.dev → Memory.wf (f q).dev) ∧
      t = { s.take rest with rspValid := false, reply := reply, peer := f s.peer }) ∨
    (s.rst = false ∧ ∃ u, Starts s u ∧ t = runSteps u.program maxSteps u) := by
  unfold step at h
  split at h
  · unfold State.resetInput at h
    split at h <;> cases h
    exact .inl ⟨‹_›, ‹_›, rfl⟩
  · rename_i hn
    have hr : s.rst = false := by simpa using hn
    split at h
    · rename_i hq
      split at h
      · cases h; exact .inr (.inl ⟨hr, hq, ‹_›, rfl⟩)
      · rename_i w rest hp
        split at h
        · rename_i i hd
          cases hi : hostRequest i with
          | none =>
            obtain ⟨f, reply, hf, e⟩ := exec_frame hi (s.take rest)
            rw [e, runFrame_idle (s := s.take rest) hq] at h
            cases h
            exact .inr (.inr (.inl ⟨hr, hq, rest, f, reply, hf, rfl⟩))
          | some q =>
            rw [exec_request hi, runRequest, if_pos (show (s.take rest).sq = .idle from hq)] at h
            cases h
            exact .inr (.inr (.inr ⟨hr, _, .idle hq rest q.1 q.2, rfl⟩))
        · cases h
    · cases h
      exact .inr (.inr (.inr ⟨hr, s, .busy ‹_›, rfl⟩))

/-- What `sel` is after a primitive that found it as `sel` (R17). -/
def selAfter (sel : Bool) : Prim → Bool
  | .select => true
  | .deselect => false
  | .writeByte _ => sel
  | .readByte => sel

/-- A primitive that completes moves no register between CHECK and commit, and uses one answer (R80, R89). -/
theorem primitive_done {p : Prim} {s t : State} {ok : Bool} {b : Byte} (hr : primitive p s = .done t ok b) :
    Unmoved s t ∧ (∀ k, t.answerAt k = s.answerAt (k + 1)) ∧
      t.sel = selAfter s.sel p := by
  rcases primitive_cases s p with ⟨-, h⟩ | ⟨-, ⟨rfl, h⟩ | ⟨rfl, h⟩ | ⟨w, rfl, h⟩ | ⟨rfl, h⟩⟩ <;> rw [hr] at h <;> cases h
  · exact ⟨unmoved_opened s, by simp, by simp [selAfter]⟩
  · exact ⟨unmoved_closed s, by simp, by simp [selAfter]⟩
  · exact ⟨unmoved_sent s _, by simp, by simp [selAfter]⟩
  · exact ⟨unmoved_gotten s, by simp, by simp [selAfter]⟩

/-- The data byte of WRW lies in range and is the operand where that does (R55). -/
theorem saturate_toNat (v : Byte) : (saturate v).toNat = min v.toNat 128 := by revert v; decide

/-- The operand byte of WTC gives back its three terminals (R61). -/
theorem argTerminals_wtcArg (a w b : Bool) (xh : BitVec 4) (xl : Bool) : argTerminals (wtcArg a w b xh xl) = ⟨a, w, b⟩ := by
  revert a w b xh xl; decide

end Sys2Proof.Machine
end

