-- ==== Sys2Proof/Laws/Fan.lean ====
section
/-! SUPPORT. The documented host: one lemma per field per update, and what issuing an operation of the block comes to. -/

namespace Sys2Proof.Machine

section
variable (f : Fan) (k : Task) (level : Int) (v : Bool) (st : Status) (ok : Bool)

@[simp] theorem become_on : (f.become k).on = f.on := rfl
@[simp] theorem become_speedLevel : (f.become k).speedLevel = f.speedLevel := rfl
@[simp] theorem become_speedCount : (f.become k).speedCount = f.speedCount := rfl
@[simp] theorem become_cachedWiper : (f.become k).cachedWiper = f.cachedWiper := rfl
@[simp] theorem become_failed : (f.become k).failed = f.failed := rfl
@[simp] theorem become_published : (f.become k).published = f.published := rfl
@[simp] theorem become_setUp : (f.become k).setUp = f.setUp := rfl
@[simp] theorem become_task : (f.become k).task = k := rfl

@[simp] theorem publish_on : f.publish.on = f.on := rfl
@[simp] theorem publish_speedLevel : f.publish.speedLevel = f.speedLevel := rfl
@[simp] theorem publish_speedCount : f.publish.speedCount = f.speedCount := rfl
@[simp] theorem publish_cachedWiper : f.publish.cachedWiper = f.cachedWiper := rfl
@[simp] theorem publish_failed : f.publish.failed = f.failed := rfl
@[simp] theorem publish_published : f.publish.published = f.published ++ [(f.on, f.speedLevel)] := rfl
@[simp] theorem publish_setUp : f.publish.setUp = f.setUp := rfl
@[simp] theorem publish_task : f.publish.task = .ready := rfl

@[simp] theorem speedResult_on : (f.speedResult level st).on = f.on := by unfold Fan.speedResult; split <;> rfl
@[simp] theorem speedResult_speedLevel : (f.speedResult level st).speedLevel = if st = .ok then level else f.speedLevel := by
  unfold Fan.speedResult; split <;> rfl
@[simp] theorem speedResult_speedCount : (f.speedResult level st).speedCount = f.speedCount := by
  unfold Fan.speedResult; split <;> rfl
@[simp] theorem speedResult_cachedWiper : (f.speedResult level st).cachedWiper =
    if st = .ok then some (BitVec.ofNat 8 (speedToWiper level f.speedCount)) else f.cachedWiper := by
  unfold Fan.speedResult; split <;> rfl
@[simp] theorem speedResult_failed : (f.speedResult level st).failed = f.failed := by unfold Fan.speedResult; split <;> rfl
@[simp] theorem speedResult_published : (f.speedResult level st).published = f.published := by
  unfold Fan.speedResult; split <;> rfl
@[simp] theorem speedResult_setUp : (f.speedResult level st).setUp = f.setUp := by unfold Fan.speedResult; split <;> rfl
@[simp] theorem speedResult_task : (f.speedResult level st).task = f.task := by unfold Fan.speedResult; split <;> rfl

@[simp] theorem switchResult_on : (f.switchResult v st).on = if st = .ok then v else f.on := by
  unfold Fan.switchResult; split <;> rfl
@[simp] theorem switchResult_speedLevel : (f.switchResult v st).speedLevel = f.speedLevel := by
  unfold Fan.switchResult; split <;> rfl
@[simp] theorem switchResult_speedCount : (f.switchResult v st).speedCount = f.speedCount := by
  unfold Fan.switchResult; split <;> rfl
@[simp] theorem switchResult_cachedWiper : (f.switchResult v st).cachedWiper = f.cachedWiper := by
  unfold Fan.switchResult; split <;> rfl
@[simp] theorem switchResult_failed : (f.switchResult v st).failed = f.failed := by unfold Fan.switchResult; split <;> rfl
@[simp] theorem switchResult_published : (f.switchResult v st).published = f.published := by
  unfold Fan.switchResult; split <;> rfl
@[simp] theorem switchResult_setUp : (f.switchResult v st).setUp = f.setUp := by unfold Fan.switchResult; split <;> rfl
@[simp] theorem switchResult_task : (f.switchResult v st).task = f.task := by unfold Fan.switchResult; split <;> rfl

@[simp] theorem zeroResult_on : (f.zeroResult st).on = f.on := by unfold Fan.zeroResult; split <;> rfl
@[simp] theorem zeroResult_speedLevel : (f.zeroResult st).speedLevel = f.speedLevel := by unfold Fan.zeroResult; split <;> rfl
@[simp] theorem zeroResult_speedCount : (f.zeroResult st).speedCount = f.speedCount := by unfold Fan.zeroResult; split <;> rfl
@[simp] theorem zeroResult_cachedWiper : (f.zeroResult st).cachedWiper = if st = .ok then some 0#8 else f.cachedWiper := by
  unfold Fan.zeroResult; split <;> rfl
@[simp] theorem zeroResult_failed : (f.zeroResult st).failed = f.failed := by unfold Fan.zeroResult; split <;> rfl
@[simp] theorem zeroResult_published : (f.zeroResult st).published = f.published := by unfold Fan.zeroResult; split <;> rfl
@[simp] theorem zeroResult_setUp : (f.zeroResult st).setUp = f.setUp := by unfold Fan.zeroResult; split <;> rfl
@[simp] theorem zeroResult_task : (f.zeroResult st).task = f.task := by unfold Fan.zeroResult; split <;> rfl

@[simp] theorem setupResult_on : (f.setupResult st ok).on = false := rfl
@[simp] theorem setupResult_speedLevel : (f.setupResult st ok).speedLevel = f.speedLevel := rfl
@[simp] theorem setupResult_speedCount : (f.setupResult st ok).speedCount = f.speedCount := rfl
@[simp] theorem setupResult_cachedWiper : (f.setupResult st ok).cachedWiper = f.cachedWiper := rfl
@[simp] theorem setupResult_failed : (f.setupResult st ok).failed = (f.failed || !(decide (st = .ok) && ok)) := rfl
@[simp] theorem setupResult_published : (f.setupResult st ok).published = f.published := rfl
@[simp] theorem setupResult_setUp : (f.setupResult st ok).setUp = f.setUp := rfl
@[simp] theorem setupResult_task : (f.setupResult st ok).task = .ready := rfl

end

/-- The two ways an issued operation comes out (R140): its result is there and the task goes on, or the adapter waits for it. -/
theorem issue_cases {i : Instr} {k : Task} {go : Rig → Host.Outcome Rig Fault Refusal} {r : Rig} {s : State}
    (h : exec i r.dpc = .next s) :
    (s.sq = .idle ∧ r.issue i k go = go ⟨s, r.fan.become k, r.calls⟩) ∨
    (s.sq ≠ .idle ∧ r.issue i k go = .next ⟨s, r.fan.become k, r.calls⟩) := by
  unfold Rig.issue andThen
  rw [h]
  by_cases hq : s.sq = .idle
  · exact .inl ⟨hq, if_pos hq⟩
  · exact .inr ⟨hq, if_neg hq⟩

/-- An issued operation always comes out in one of those ways: no instruction ends in a fault or a refusal. -/
theorem issue_next {i : Instr} {k : Task} {go : Rig → Host.Outcome Rig Fault Refusal} {r r' : Rig}
    (h : r.issue i k go = .next r') :
    ∃ s, exec i r.dpc = .next s ∧
      ((s.sq = .idle ∧ go ⟨s, r.fan.become k, r.calls⟩ = .next r') ∨ (s.sq ≠ .idle ∧ r' = ⟨s, r.fan.become k, r.calls⟩)) := by
  obtain ⟨s, hs⟩ := exec_next i r.dpc
  refine ⟨s, hs, ?_⟩
  rcases issue_cases (k := k) (go := go) hs with ⟨hq, e⟩ | ⟨hq, e⟩ <;> rw [e] at h
  · exact .inl ⟨hq, h⟩
  · cases h; exact .inr ⟨hq, rfl⟩

/-- The ways a step of the adapter comes out: nothing to do, the next call served, a task gone on with, or one more wait. -/
theorem rig_step_cases {r r' : Rig} (h : r.step = .next r') :
    (r.fan.task = .ready ∧ r.calls = [] ∧ r' = r) ∨
    (r.fan.task = .ready ∧ ∃ c rest, r.calls = c :: rest ∧ Rig.serve c { r with calls := rest } = .next r') ∨
    (r.fan.task ≠ .ready ∧ r.dpc.resume.sq = .idle ∧ Rig.proceed { r with dpc := r.dpc.resume } = .next r') ∨
    (r.fan.task ≠ .ready ∧ r.dpc.resume.sq ≠ .idle ∧ r' = { r with dpc := r.dpc.resume }) := by
  unfold Rig.step at h
  split at h
  · rename_i ht
    split at h
    · rename_i hc; cases h; exact .inl ⟨ht, hc, rfl⟩
    · rename_i c rest hc; exact .inr (.inl ⟨ht, c, rest, hc, h⟩)
  · rename_i ht
    split at h
    · exact .inr (.inr (.inl ⟨ht, ‹_›, h⟩))
    · rename_i hq; cases h; exact .inr (.inr (.inr ⟨ht, hq, rfl⟩))

end Sys2Proof.Machine
end

