-- ==== Sys2Proof/Laws/PerInstr.lean ====
section
/-! SUPPORT. What is said of every instruction, constructor by constructor: in the default build its word is one of its row of
spec/opcode_table.json. -/

namespace Sys2Proof.Laws

/-- The mask and the match of an instruction's row in spec/opcode_table.json. -/
def tableRow : Instr → BitVec 16 × BitVec 16
  | .wrw _ => (0x700, 0x000)
  | .rdw _ => (0x700, 0x100)
  | .inc _ => (0x700, 0x200)
  | .dec _ => (0x700, 0x300)
  | .wtc _ _ _ _ _ => (0x700, 0x400)
  | .ent _ => (0x700, 0x500)
  | .dist _ => (0x700, 0x600)
  | .reserved _ => (0x700, 0x700)
  | .busWrite _ _ _ => (0x0C, 0x00)
  | .busIncrement _ _ => (0x0C, 0x04)
  | .busDecrement _ _ => (0x0C, 0x08)
  | .busRead _ _ => (0x0C, 0x0C)
  | .busWrw _ => (0xFF, 0x00)
  | .busInc => (0xFF, 0x04)
  | .busDec => (0xFF, 0x08)
  | .busRdw => (0xFF, 0x0C)
  | .busWtc _ => (0xFF, 0x40)

/-- The bits the table numbers: of a host request its two bytes, of a bus frame its command byte. -/
def tableBits (w : PortWord) : BitVec 16 :=
  match w.port with
  | .host => (w.bytes.getD 1 0#8) ++ (w.bytes.getD 0 0#8)
  | .bus => (w.bytes.getD 0 0#8).setWidth 16

/-- The fixed bits of an instruction's word are those of its row. -/
def MatchesTable.Statement (i : Instr) : Prop :=
  tableBits (encode Config.default i) &&& (tableRow i).1 = (tableRow i).2

namespace MatchesTable

theorem wrw : ∀ v, Statement (.wrw v) := by unfold Statement; decide
theorem rdw : ∀ x, Statement (.rdw x) := by unfold Statement; decide
theorem inc : ∀ x, Statement (.inc x) := by unfold Statement; decide
theorem dec : ∀ x, Statement (.dec x) := by unfold Statement; decide
theorem wtc : ∀ a w b xh xl, Statement (.wtc a w b xh xl) := by unfold Statement; decide
theorem ent : ∀ x, Statement (.ent x) := by unfold Statement; decide
theorem dist : ∀ x, Statement (.dist x) := by unfold Statement; decide
theorem reserved : ∀ x, Statement (.reserved x) := by unfold Statement; decide
theorem busWrite : ∀ addr dx data, Statement (.busWrite addr dx data) := by
  intro addr dx data
  have h : ∀ addr dx, Statement (.busWrite addr dx 0#8) := by unfold Statement; decide
  exact h addr dx
theorem busIncrement : ∀ addr dx, Statement (.busIncrement addr dx) := by unfold Statement; decide
theorem busDecrement : ∀ addr dx, Statement (.busDecrement addr dx) := by unfold Statement; decide
theorem busRead : ∀ addr dx, Statement (.busRead addr dx) := by unfold Statement; decide
theorem busWrw : ∀ data, Statement (.busWrw data) := by
  intro data
  have h : Statement (.busWrw 0#8) := by unfold Statement; decide
  exact h
theorem busInc : Statement .busInc := by unfold Statement; rfl
theorem busDec : Statement .busDec := by unfold Statement; rfl
theorem busRdw : Statement .busRdw := by unfold Statement; rfl
theorem busWtc : ∀ data, Statement (.busWtc data) := by
  intro data
  have h : Statement (.busWtc 0#8) := by unfold Statement; decide
  exact h

end MatchesTable

end Sys2Proof.Laws
end

