-- ==== Sys2Proof/Laws/Steps.lean ====
section
/-! SUPPORT. What a busy block that keeps the invariant comes to, said once: the operation is rejected at CHECK, waits somewhere
in its frame, or is committed; what a commit writes, by operation; how many answers a run uses. -/

namespace Sys2Proof.Machine

/-! ### What CHECK has settled (R83) -/

/-- A WRW past CHECK holds its operand, brought into range, in `d` (R55). -/
theorem checked_wrw {s : State} (h : s.Checked) (ho : s.op = 0#3) : s.d = saturate s.arg := by
  obtain ⟨data, hc, hd⟩ := h
  rw [State.program, ho] at hc
  simp only [requestProgram_wrw, wrwProgram, memWrite, wrwCheck] at hc
  split at hc <;> cases hc
  exact hd

/-- A terminal operation past CHECK runs in variant B (R130). -/
theorem checked_variant {s : State} (h : s.Checked) (ho : terminalOp s.op = true) : s.cfg.variant = .B := by
  obtain ⟨data, hc, hd⟩ := h
  simp [terminalOp] at ho
  cases hv : s.cfg.variant
  · rcases ho with (ho | ho) | ho <;>
      simp [State.program, ho, wtcProgram, entProgram, distProgram, memWrite, terminalCheck, hv] at hc
  · rfl

/-- The reserved request never gets past CHECK (R64). -/
theorem checked_reserved {s : State} (h : s.Checked) : s.op ≠ 7#3 := by
  intro ho
  obtain ⟨data, hc, hd⟩ := h
  simp [State.program, ho, reservedProgram] at hc

/-- `Checked` speaks of the configuration, the latched request and `d` only. -/
theorem checked_congr {s t : State} (h : s.Checked) (hu : Unmoved s t) : t.Checked := by
  obtain ⟨data, hc, hd⟩ := h
  exact ⟨data, by rw [program_congr hu.op, hu.cfg, hu.arg]; exact hc, by rw [hu.d]; exact hd⟩

/-! ### What a busy block comes to -/

/-- A block past CHECK that keeps the invariant is under way. -/
theorem inv_underway {s : State} (h : s.Inv) (hp : s.sq.pastCheck = true) : Underway s.program s :=
  ⟨hp, h.in_frame hp, h.sel_bracket, fun hf => by
    rcases h.fail_finish hf with h | h
    · simp [h, Sq.pastCheck] at hp
    · exact h⟩

/-- `u` is where the frame of `s` goes on: where it stands, or, from CHECK, at its `Select` (R83). -/
def Begins (s u : State) : Prop :=
  u = s ∨ (s.sq = .check ∧ ∃ data, s.program.check s.cfg s.arg = .proceed data ∧ u = begun data s)

/-- The three ways a run of a busy block can come out. -/
inductive Outcome (s t : State) : Prop where
  | rejected (st : Status) (check : s.sq = .check) (reject : s.program.check s.cfg s.arg = .reject st)
      (result : t = (s.respond st).release)
  | waiting (u : State) (begins : Begins s u) (underway : Underway s.program u) (checked : u.Checked) (unmoved : Unmoved u t)
      (stands : Underway s.program t)
  | committed (u v : State) (bytes : List Event) (begins : Begins s u) (underway : Underway s.program u) (checked : u.Checked)
      (inside : Inside s.program u v bytes) (finish : v.sq = .finish) (result : t = commit s.program v.closed)

/-- What a busy block that keeps the invariant comes to when it goes on, whatever the transport answers (R82 to R89). -/
theorem resume_outcome {s : State} (h : s.Inv) (hb : s.sq ≠ .idle) : Outcome s s.resume := by
  have key : ∀ (u : State) (n : Nat), Begins s u → Underway s.program u → u.Checked →
      Outcome s (runSteps s.program n u) := by
    intro u n hbg hu hck
    by_cases ht : (runSteps s.program n u).sq = .idle
    · obtain ⟨v, bytes, hi, hv, e⟩ := run_committed hu n ht
      exact .committed u v bytes hbg hu hck hi hv e
    · obtain ⟨hm, hs⟩ := run_waiting hu n ht
      exact .waiting u hbg hu hck hm hs
  by_cases hp : s.sq.pastCheck = true
  · exact key s _ (.inl rfl) (inv_underway h hp) (h.checked hp)
  · have hq : s.sq = .check := by cases hq : s.sq <;> simp_all [Sq.pastCheck]
    have hsel : s.sel = false := by rw [h.sel_bracket, hq]; rfl
    have hf : s.fail = false := by
      cases hf : s.fail
      · rfl
      · rcases h.fail_finish hf with h | h <;> simp [h] at hq
    unfold State.resume
    rcases run_check (m := s.program) hq 6 with ⟨st, hc, e⟩ | ⟨data, hc, e⟩ <;> rw [show (maxSteps : Nat) = 6 + 1 from rfl, e]
    · exact .rejected st hq hc rfl
    · exact key _ 6 (.inr ⟨hq, data, hc, rfl⟩) (underway_begun data hsel hf) ⟨data, hc, by cases data <;> rfl⟩

/-! ### What a commit writes -/

/-- The commit of a checked operation in which no byte failed, by operation (R89): the result, `W[0]` and `TC`. -/
theorem commit_cases {v : State} (hck : v.Checked) (hf : v.fail = false) :
    let t := commit v.program v
    (v.op = 0#3 ∧ t.status = .ok ∧ t.w0 = v.d ∧ t.tc = v.tc) ∨
    (v.op = 1#3 ∧ t.w0 = v.w0 ∧ t.tc = v.tc ∧ (t.status = .integrityViolation ∧ wiperMax < v.lo ∨ t.status = .ok)) ∨
    (v.op = 2#3 ∧ t.tc = v.tc ∧ (t.status = .alreadyAtBound ∧ v.w0 = wiperMax ∧ t.w0 = v.w0 ∨
      t.status = .ok ∧ v.w0 ≠ wiperMax ∧ t.w0 = v.w0 + 1#8)) ∨
    (v.op = 3#3 ∧ t.tc = v.tc ∧ (t.status = .alreadyAtBound ∧ v.w0 = wiperMin ∧ t.w0 = v.w0 ∨
      t.status = .ok ∧ v.w0 ≠ wiperMin ∧ t.w0 = v.w0 - 1#8)) ∨
    (terminalOp v.op = true ∧ v.cfg.variant = .B ∧ t.status = .ok ∧ t.w0 = v.w0 ∧
      ∃ tm, t.tc = some tm ∧ v.d = tconByte tm ∧ (v.op = 4#3 → tm = argTerminals v.arg) ∧ (v.op = 5#3 → tm = allConnected) ∧
        (v.op = 6#3 → tm = allDisconnected)) := by
  intro t
  have hne := checked_reserved hck
  have ht : t = (v.program.commit v).release := commit_good hf
  rw [ht]
  have hd : terminalOp v.op = true → v.cfg.variant = .B := checked_variant hck
  obtain ⟨data, hc, hdd⟩ := hck
  unfold State.program at hc ⊢
  rcases opcode_cases v.op with o | o | o | o | o | o | o | o <;> rw [o] at hc ⊢
  · exact .inl ⟨rfl, rfl, rfl, rfl⟩
  · refine .inr (.inl ⟨rfl, ?_⟩)
    simp only [requestProgram_rdw, rdwProgram, memRead]
    unfold rdwCommit
    split
    · exact ⟨rfl, rfl, .inl ⟨rfl, ‹_›⟩⟩
    · exact ⟨rfl, rfl, .inr rfl⟩
  · refine .inr (.inr (.inl ⟨rfl, ?_⟩))
    simp only [requestProgram_inc, incProgram]
    unfold incCommit
    split
    · exact ⟨rfl, .inl ⟨rfl, ‹_›, rfl⟩⟩
    · exact ⟨rfl, .inr ⟨rfl, ‹_›, rfl⟩⟩
  · refine .inr (.inr (.inr (.inl ⟨rfl, ?_⟩)))
    simp only [requestProgram_dec, decProgram]
    unfold decCommit
    split
    · exact ⟨rfl, .inl ⟨rfl, ‹_›, rfl⟩⟩
    · exact ⟨rfl, .inr ⟨rfl, ‹_›, rfl⟩⟩
  all_goals first
    | exact absurd o hne
    | refine .inr (.inr (.inr (.inr ⟨by decide, hd (by rw [o]; decide), rfl, rfl, _, rfl, ?_, ?_⟩)))
      · simp [wtcProgram, entProgram, distProgram, memWrite, terminalCheck, hd (by rw [o]; decide)] at hc
        rw [← hc] at hdd; exact hdd
      · exact ⟨fun h => by first | rfl | simp at h, fun h => by first | rfl | simp at h, fun h => by first | rfl | simp at h⟩

/-! ### How many answers a run uses (R194) -/

/-- The primitives of a frame still to come at a step of it when no byte fails; no run from there uses more answers. -/
def stepsLeft (f : Format) : Sq → Nat
  | .idle => 0
  | .check => 0
  | .select => match f with | .s1 => 3 | .w2 => 4 | .r4 => 6
  | .b0 => match f with | .s1 => 2 | .w2 => 3 | .r4 => 5
  | .b1 => match f with | .s1 => 0 | .w2 => 2 | .r4 => 4
  | .b2 => 3
  | .b3 => 2
  | .finish => 1

theorem stepsLeft_le (f : Format) (q : Sq) : stepsLeft f q ≤ 6 := by cases f <;> cases q <;> decide

theorem stepsLeft_next {f : Format} {q : Sq} (h : q.inFormat f = true) (h2 : q ≠ .finish) :
    stepsLeft f (nextSq f q) + 1 = stepsLeft f q ∧ 2 ≤ stepsLeft f q ∧ (nextSq f q).inFormat f = true := by
  revert h h2; cases f <;> cases q <;> decide

/-- A run past CHECK whose primitives complete ends, and uses at most `stepsLeft` answers. -/
theorem run_ends (op : BitVec 3) : ∀ (n : Nat) (s : State), s.sq.inFormat (requestProgram op).format = true →
    stepsLeft (requestProgram op).format s.sq ≤ n → s.Prompt (stepsLeft (requestProgram op).format s.sq) →
    (runSteps (requestProgram op) n s).sq = .idle ∧
      ∃ j, j ≤ stepsLeft (requestProgram op).format s.sq ∧
        ∀ k, (runSteps (requestProgram op) n s).answerAt k = s.answerAt (k + j) := by
  intro n
  induction n with
  | zero =>
    intro s hi hl _
    exfalso
    revert hi hl; generalize s.sq = q; generalize (requestProgram op).format = f; cases q <;> cases f <;> decide
  | succ n ih =>
    intro s hi hl hp
    have hpos : 0 < stepsLeft (requestProgram op).format s.sq := by
      revert hi; generalize s.sq = q; generalize (requestProgram op).format = f; cases q <;> cases f <;> decide
    have latch : ∀ (b : Byte) (u : State) (k : Nat), (latchByte s.sq b u).answerAt k = u.answerAt k := by
      intro b u k; unfold latchByte; split <;> simp
    unfold runSteps
    rcases advance_cases (requestProgram op) s with ⟨hq, e⟩ | ⟨hq, e⟩ | ⟨hq1, hq2, ⟨hn, e⟩ | ⟨p, hcp, hd, e⟩ | ⟨p, u, ok, b, hcp, hd, hr, e⟩⟩
    · simp [hq, Sq.inFormat] at hi
    · simp [hq, Sq.inFormat] at hi
    · exfalso
      revert hi hn; unfold currentPrim bytePrim
      generalize (requestProgram op).format = f; cases hq : s.sq <;> cases f <;> simp [Sq.inFormat]
    · simp [hp 0 hpos] at hd
    · obtain ⟨-, hans, -⟩ := primitive_done hr
      rw [e]; simp only
      unfold afterPrim
      split_ifs with h1 h2
      · rw [runSteps_idle (by simp)]
        obtain ⟨-, -, -, -, -, -, -, -, -, -, -, -, h13, h14, -, -, h17, -⟩ := commit_all op u
        refine ⟨by simp, 1, by simp [h1, stepsLeft], fun k => ?_⟩
        rw [answerAt_congr h13 h17 h14 k, hans]
      · obtain ⟨h3, -, h5⟩ := stepsLeft_next hi h1
        obtain ⟨a, j, hj, c⟩ := ih ((latchByte s.sq b u).goto (nextSq (requestProgram op).format s.sq)) (by simpa using h5)
          (by rw [goto_sq]; omega) (fun k hk => by
            rw [goto_sq] at hk
            rw [goto_answerAt, latch, hans]; exact hp _ (by omega))
        exact ⟨a, j + 1, by rw [goto_sq] at hj; omega, fun k => by rw [c, goto_answerAt, latch, hans, Nat.add_assoc]⟩
      · obtain ⟨-, h4, -⟩ := stepsLeft_next hi h1
        obtain ⟨a, j, hj, c⟩ := ih ((latchByte s.sq b u).abort) (by simp [Sq.inFormat])
          (by rw [abort_sq]; simp [stepsLeft]; omega) (fun k hk => by
            rw [abort_sq] at hk; simp [stepsLeft] at hk
            rw [abort_answerAt, latch, hans]; exact hp _ (by omega))
        exact ⟨a, j + 1, by rw [abort_sq] at hj; simp [stepsLeft] at hj; omega,
          fun k => by rw [c, abort_answerAt, latch, hans, Nat.add_assoc]⟩

end Sys2Proof.Machine
end

