-- ==== Sys2Proof/Tests/Slice0.lean ====
section
/-! SUPPORT. The model's own tests. Expected values are those of spec/95_test_vectors.md (named in each comment) or read from
the encodings of spec/30_encoding.md; none comes from the model. The witnesses at the end meet the hypotheses of the
statements in Certificates/Slice0/Obligations.lean. -/

namespace Sys2Proof.Tests

open Sys2Proof.Machine

/-! ### Well-formedness: each check refuses an ill-formed term -/

theorem test_default_config_wf : Config.default.wf := by decide
theorem test_initial_value_above_128 : ¬ ({ initValue := 129#8 } : Config).wf := by decide
theorem test_two_registers_at_one_address : ¬ ({ addrTcon := 0x3#4 } : Config).wf := by decide
theorem test_two_commands_with_one_code : ¬ ({ cmdRead := 0b00#2 } : Config).wf := by decide
theorem test_ill_formed_config_refused : State.boot { initValue := 255#8 } = .refused .illFormedConfig := by rfl
theorem test_generic_write_of_a_wrw_byte : ¬ (Instr.busWrite 0#4 0#2 7#8).wf Config.default := by decide
theorem test_generic_write_of_a_wtc_byte : ¬ (Instr.busWrite 4#4 0#2 7#8).wf Config.default := by decide
theorem test_generic_increment_of_an_inc_byte : ¬ (Instr.busIncrement 0#4 0#2).wf Config.default := by decide
theorem test_generic_decrement_of_a_dec_byte : ¬ (Instr.busDecrement 0#4 0#2).wf Config.default := by decide
theorem test_generic_read_of_an_rdw_byte : ¬ (Instr.busRead 0#4 0#2).wf Config.default := by decide

/-! ### Decoding: words written out from R50, R54 and R61 -/

/-- The two bytes of an 11-bit request, the low one first. -/
def request (high low : Byte) : PortWord := ⟨.host, [low, high]⟩

def decoded (w : PortWord) : Except DecodeError Instr := decode Config.default w

theorem test_decode_wrw : decoded (request 0b00000000#8 0b11001000#8) = .ok (.wrw 200#8) := by rfl
theorem test_decode_rdw : decoded (request 0b00000001#8 0b10000001#8) = .ok (.rdw 0x81#8) := by rfl
theorem test_decode_inc : decoded (request 0b00000010#8 0b00000000#8) = .ok (.inc 0#8) := by rfl
theorem test_decode_dec : decoded (request 0b00000011#8 0b00000001#8) = .ok (.dec 1#8) := by rfl
theorem test_decode_wtc : decoded (request 0b00000100#8 0b11111010#8) = .ok (.wtc true false true 0xF#4 false) := by rfl
theorem test_decode_ent : decoded (request 0b00000101#8 0b00000000#8) = .ok (.ent 0#8) := by rfl
theorem test_decode_dist : decoded (request 0b00000110#8 0b00000000#8) = .ok (.dist 0#8) := by rfl
theorem test_decode_reserved : decoded (request 0b00000111#8 0b01010101#8) = .ok (.reserved 0x55#8) := by rfl
theorem test_decode_bus_write : decoded ⟨.bus, [0b10010010#8, 0x5A#8]⟩ = .ok (.busWrite 9#4 2#2 0x5A#8) := by rfl
theorem test_decode_bus_increment : decoded ⟨.bus, [0b00010100#8]⟩ = .ok (.busIncrement 1#4 0#2) := by rfl
theorem test_decode_bus_decrement : decoded ⟨.bus, [0b00001001#8]⟩ = .ok (.busDecrement 0#4 1#2) := by rfl
theorem test_decode_bus_read : decoded ⟨.bus, [0b01001111#8]⟩ = .ok (.busRead 4#4 3#2) := by rfl
theorem test_decode_bus_wrw : decoded ⟨.bus, [0b00000000#8, 0x80#8]⟩ = .ok (.busWrw 0x80#8) := by rfl
theorem test_decode_bus_inc : decoded ⟨.bus, [0b00000100#8]⟩ = .ok .busInc := by rfl
theorem test_decode_bus_dec : decoded ⟨.bus, [0b00001000#8]⟩ = .ok .busDec := by rfl
theorem test_decode_bus_rdw : decoded ⟨.bus, [0b00001100#8]⟩ = .ok .busRdw := by rfl
theorem test_decode_bus_wtc : decoded ⟨.bus, [0b01000000#8, 0xF1#8]⟩ = .ok (.busWtc 0xF1#8) := by rfl

theorem test_reject_truncated_request : decoded ⟨.host, [0#8]⟩ = .error .truncatedRequest := by rfl
theorem test_reject_wide_request : decoded (request 0b00001000#8 0#8) = .error .requestTooWide := by rfl
theorem test_reject_empty_frame : decoded ⟨.bus, []⟩ = .error .emptyFrame := by rfl
theorem test_reject_write_without_data : decoded ⟨.bus, [0x40#8]⟩ = .error .missingDataByte := by rfl
theorem test_reject_unassigned_code :
    decode { cmdRead := 0b00#2 } ⟨.bus, [0b00001100#8]⟩ = .error .unassignedCode := by rfl

/-- V2: the command encoder's corner cases. -/
theorem test_encoder_corner_cases :
    commandByte 0x0#4 0x0F#8 0x00#8 = 0x0C#8 ∧ commandByte 0x0#4 0x03#8 0x00#8 = 0x00#8 ∧
    commandByte 0x4#4 0x0C#8 0x03#8 = 0x4F#8 ∧ commandByte 0x5#4 0xFF#8 0xFF#8 = 0x5F#8 ∧
    commandByte 0x3#4 0x08#8 0xFC#8 = 0x38#8 ∧ commandByte 0x9#4 0xF3#8 0x02#8 = 0x92#8 := by decide

/-! ### One operation each -/

/-- An idle block of variant `v` with `W[0] = w`, the reference peer with `DEV[0] = dev`, the next answers of the transport `l`
and the words `p` waiting. -/
def rigged (v : Variant) (w dev : Byte) (l : List Answer) (p : List PortWord) : State :=
  { State.reset with
    cfg := { variant := v }, w0 := w, link := .reference, peer := { Peer.initial with dev := [(0, dev)] }, tin := l, pending := p }

/-- The block of variant `v` with `W[0] = w` and the reference peer, its `DEV[0]` at `w` too. -/
def bench (v : Variant) (w : Byte) : State := rigged v w w [] []

/-- What a primitive that completes and succeeds answers. -/
def good : Answer := ⟨true, true, 0#8⟩
/-- What a byte primitive that fails answers. -/
def bad : Answer := ⟨true, false, 0#8⟩
/-- What a primitive that has not completed answers. -/
def never : Answer := ⟨false, false, 0#8⟩

/-- The next answers of the transport are `l`. -/
def scripted (l : List Answer) (s : State) : State := { s with tin := l }

/-- The status, `W[0]`, `TC` and the primitives after an operation. -/
def seen (o : Host.Outcome State Fault Refusal) : Option (Status × Byte × Option TermState × List Event) :=
  match o with
  | .next t => some (t.status, t.w0, t.tc, t.trace)
  | .fault _ => none
  | .refused _ => none

/-- What `RDW` reports: the status and, when it is OK, the value. -/
def value (o : Host.Outcome State Fault Refusal) : Option (Status × Option Byte) :=
  match o with
  | .next t => some (t.status, if t.status = .ok then some t.rdata else none)
  | .fault _ => none
  | .refused _ => none

/-- A register of the reference peer after an operation. -/
def device (a : Nat) (o : Host.Outcome State Fault Refusal) : Option Byte :=
  match o with
  | .next t => Memory.read t.peer.dev a
  | .fault _ => none
  | .refused _ => none

/-- V3: 200 saturates in the lenient variant. -/
theorem test_wrw_saturates : seen (exec (.wrw 200#8) (bench .A 64#8)) =
    some (.ok, 128#8, none, [.selected, .wrote 0x00#8 true, .wrote 0x80#8 true, .deselected]) := by rfl
/-- V3: 129 is rejected by the strict variant. -/
theorem test_wrw_rejected : seen (exec (.wrw 129#8) (bench .B 64#8)) = some (.rangeViolation, 64#8, none, []) := by rfl

/-- V5: the high byte is ignored, the low byte is the value. -/
theorem test_rdw_ignores_the_high_byte :
    value (exec (.rdw 0#8) (scripted [good, good, good, ⟨true, true, 0xFF#8⟩, ⟨true, true, 0x40#8⟩, good]
      { bench .B 100#8 with link := .free })) = some (.ok, some 64#8) := by rfl
/-- V7: the second read fails. -/
theorem test_rdw_second_read_fails : seen (exec (.rdw 0#8) (scripted [good, good, good, good, bad] (bench .B 10#8))) =
    some (.transportFailure, 10#8, none,
      [.selected, .wrote 0x0C#8 true, .wrote 0x00#8 true, .got 0x00#8 true, .got 0x00#8 false, .deselected]) := by rfl

/-- V6: INC at 128 sends its byte and reports the bound. -/
theorem test_inc_at_the_bound : seen (exec (.inc 0#8) (bench .B 128#8)) =
    some (.alreadyAtBound, 128#8, none, [.selected, .wrote 0x04#8 true, .deselected]) := by rfl
/-- V7: a failed byte at the bound is a TransportFailure. -/
theorem test_inc_fails_at_the_bound : seen (exec (.inc 0#8) (scripted [good, bad] (bench .B 128#8))) =
    some (.transportFailure, 128#8, none, [.selected, .wrote 0x04#8 false, .deselected]) := by rfl

/-- V6: DEC from 1. -/
theorem test_dec_from_one : seen (exec (.dec 0#8) (bench .B 1#8)) =
    some (.ok, 0#8, none, [.selected, .wrote 0x08#8 true, .deselected]) := by rfl
/-- V6: DEC at 0. -/
theorem test_dec_at_the_bound : seen (exec (.dec 0#8) (bench .B 0#8)) =
    some (.alreadyAtBound, 0#8, none, [.selected, .wrote 0x08#8 true, .deselected]) := by rfl

/-- V4: A and B connected, W not; the ignored bits set. -/
theorem test_wtc_partial : seen (exec (.wtc true false true 0xF#4 true) (bench .B 64#8)) =
    some (.ok, 64#8, some ⟨true, false, true⟩,
      [.selected, .wrote 0x40#8 true, .wrote 0xFB#8 true, .deselected]) := by rfl
/-- V7: the data byte fails, `TC` keeps its value. -/
theorem test_wtc_fails : seen (exec (.wtc true true false 0#4 false)
      (scripted [good, good, bad] { bench .B 64#8 with tc := some ⟨true, true, true⟩ })) =
    some (.transportFailure, 64#8, some ⟨true, true, true⟩,
      [.selected, .wrote 0x40#8 true, .wrote 0xFD#8 false, .deselected]) := by rfl

/-- V4: ENT sends 0xFF. -/
theorem test_ent : seen (exec (.ent 0#8) (bench .B 64#8)) =
    some (.ok, 64#8, some ⟨true, true, true⟩, [.selected, .wrote 0x40#8 true, .wrote 0xFF#8 true, .deselected]) := by rfl
/-- V4: ENT in the lenient variant. -/
theorem test_ent_unsupported : seen (exec (.ent 0#8) (bench .A 64#8)) = some (.unsupported, 64#8, none, []) := by rfl

/-- V4: DIST sends 0xF1 (conflict C1). -/
theorem test_dist : seen (exec (.dist 0#8) (bench .B 64#8)) =
    some (.ok, 64#8, some ⟨false, false, false⟩, [.selected, .wrote 0x40#8 true, .wrote 0xF1#8 true, .deselected]) := by rfl
/-- R64: the reserved opcode. -/
theorem test_reserved : seen (exec (.reserved 0xFF#8) (bench .B 64#8)) = some (.unsupported, 64#8, none, []) := by rfl

/-- What the bus rows answer with, and what they put on the bus of the block. -/
def answered (o : Host.Outcome State Fault Refusal) : Option (List Byte × List Event) :=
  match o with
  | .next t => some (t.reply, t.trace)
  | .fault _ => none
  | .refused _ => none

/-- R46: a Write frame to Wiper1 reaches the device; R54: the block emits nothing. -/
theorem test_bus_write : device 1 (exec (.busWrite 1#4 0#2 0x33#8) (bench .B 64#8)) = some 0x33#8 ∧
    answered (exec (.busWrite 9#4 2#2 0x33#8) (bench .B 64#8)) = some ([], []) := ⟨by rfl, by rfl⟩
/-- R45: an Increment frame to a register that holds 127. -/
theorem test_bus_increment :
    device 1 (exec (.busIncrement 1#4 2#2) { bench .B 64#8 with peer := { Peer.initial with dev := [(1, 127#8)] } }) =
      some 128#8 := by rfl
/-- R45: a Decrement frame stops at 0. -/
theorem test_bus_decrement :
    device 1 (exec (.busDecrement 1#4 0#2) { bench .B 64#8 with peer := { Peer.initial with dev := [(1, 0#8)] } }) =
      some 0#8 := by rfl
/-- R47: a Read frame is answered with zero and the register. -/
theorem test_bus_read : answered (exec (.busRead 0#4 3#2) (bench .B 7#8)) = some ([0x00#8, 0x07#8], []) := by rfl
/-- R46, R54: the frame of WRW stores at Wiper0 and leaves `W[0]`. -/
theorem test_bus_wrw : device 0 (exec (.busWrw 5#8) (bench .B 64#8)) = some 5#8 ∧
    seen (exec (.busWrw 5#8) (bench .B 64#8)) = some (.ok, 64#8, none, []) := ⟨by rfl, by rfl⟩
/-- R45, R54: the frame of INC steps the device only. -/
theorem test_bus_inc : device 0 (exec .busInc (bench .B 64#8)) = some 65#8 := by rfl
/-- R45, R54: the frame of DEC. -/
theorem test_bus_dec : device 0 (exec .busDec (bench .B 64#8)) = some 63#8 := by rfl
/-- R47, R54: the frame of RDW. -/
theorem test_bus_rdw : answered (exec .busRdw (bench .B 64#8)) = some ([0x00#8, 0x40#8], []) := by rfl
/-- R46, R54: the frame of DIST. -/
theorem test_bus_wtc : device 4 (exec (.busWtc 0xF1#8) (bench .B 64#8)) = some 0xF1#8 := by rfl

/-- P6: at 128 INC steps a device that holds 100, and the shadow stays. -/
theorem test_shadow_and_device_disagree :
    device 0 (exec (.inc 0#8) { bench .B 128#8 with peer := { Peer.initial with dev := [(0, 100#8)] } }) = some 101#8 := by rfl

/-- R82: a block whose transport has not completed the data byte waits there, and its next step finishes the operation. -/
theorem test_wait_and_resume :
    seen (step { scripted [never, good, good, good, good] (bench .B 64#8) with pending := [requestWord 0#3 9#8] }) =
      some (.ok, 64#8, none, []) ∧
    (match step { scripted [never, good, good, good, good] (bench .B 64#8) with pending := [requestWord 0#3 9#8] } with
      | .next t => seen (step t)
      | .fault _ => none
      | .refused _ => none) =
      some (.ok, 9#8, none, [.selected, .wrote 0x00#8 true, .wrote 0x09#8 true, .deselected]) := ⟨by rfl, by rfl⟩

/-- R13: `TC` does not exist in variant A. -/
theorem test_tc_absent : (bench .A 64#8).readTerminals = .fault .noTerminalRegister ∧
    (bench .A 64#8).dbgTc = .fault .noTerminalRegister ∧ (bench .A 64#8).dbgTcValid = .fault .noTerminalRegister := ⟨rfl, rfl, rfl⟩
/-- R14, R92: `TC` as the diagnostics port shows it in variant B. -/
theorem test_tc_shown : { bench .B 64#8 with tc := some ⟨true, false, true⟩ }.dbgTc = .next (some 0xFB#8) ∧
    (bench .B 64#8).dbgTcValid = .next false := ⟨rfl, rfl⟩
/-- R61, R92: a waiting request on the signals of the host port; a waiting frame of the bus is no request. -/
theorem test_request_signals :
    (rigged .B 0#8 0#8 [] [requestWord 6#3 9#8]).reqOp = some 6#3 ∧ (rigged .B 0#8 0#8 [] [requestWord 6#3 9#8]).reqArg = some 9#8 ∧
    (rigged .B 0#8 0#8 [] [⟨.bus, [0x04#8]⟩]).reqValid = false := by decide

/-- R62: the status numbers. -/
theorem test_status_numbers :
    [Status.ok, .transportFailure, .rangeViolation, .integrityViolation, .alreadyAtBound, .unsupported].map Status.code =
      [0b000#3, 0b001#3, 0b010#3, 0b011#3, 0b100#3, 0b101#3] := by decide
/-- R91: the numbers of the primitives. -/
theorem test_primitive_numbers :
    [Prim.select, .deselect, .writeByte 0x5A#8, .readByte].map Prim.kind = [0b00#2, 0b01#2, 0b10#2, 0b11#2] := by decide

/-- V8: the speed mapping. -/
theorem test_speed_to_wiper :
    speedToWiper 1 5 = 25 ∧ speedToWiper 3 5 = 76 ∧ speedToWiper 7 5 = 128 ∧ speedToWiper (-3) 5 = 0 ∧
    speedToWiper 1 129 = 1 ∧ speedToWiper 99 100 = 126 ∧ speedToWiper 0 0 = 0 ∧ speedToWiper 1 0 = 128 := by decide

/-! ### The documented host, one call each -/

/-- An adapter with four speeds on the given block, on at speed 2, the framework's calls `calls` to come. -/
def fan (s : State) (failed setUp : Bool) (task : Task) (calls : List Call) : Rig :=
  ⟨s, ⟨true, 2, 4, none, failed, [], setUp, task⟩, calls⟩

/-- `W[0]`, `TC` and the adapter's on/off flag and speed level after a step of it. -/
def fanSeen (o : Host.Outcome Rig Fault Refusal) : Option (Byte × Option TermState × Bool × Int) :=
  match o with
  | .next r => some (r.dpc.w0, r.dpc.tc, r.fan.on, r.fan.speedLevel)
  | .fault _ => none
  | .refused _ => none

/-- R140, R143, R183: setup over a transport that is slow at the first frame; the next step reaches `W[0] = 0`, terminals off. -/
theorem test_setup_waits :
    (match (fan (rigged .B 64#8 64#8 [good, never] []) false false .ready [.setup]).step with
      | .next r => fanSeen r.step
      | .fault _ => none
      | .refused _ => none) = some (0#8, some ⟨false, false, false⟩, false, 2) := by rfl
/-- P5: the first byte of ENT fails, the speed write goes through. -/
theorem test_combined_request :
    fanSeen ((fan (rigged .B 0#8 0#8 [good, bad] []) false true .ready [.control ⟨some true, some 3⟩]).step) =
      some (96#8, none, true, 3) := by rfl

/-! ### Witnesses: the hypotheses of each statement can be met -/

/-- An idle block of variant B with the reference peer. -/
def idle : State := bench .B 64#8

theorem rigged_lucky (v : Variant) (w dev : Byte) (p : List PortWord) (n : Nat) : (rigged v w dev [] p).Lucky n :=
  fun _ _ => ⟨rfl, rfl⟩

theorem bench_lucky (v : Variant) (w : Byte) (n : Nat) : (bench v w).Lucky n := rigged_lucky _ _ _ _ _

theorem rigged_prompt (v : Variant) (w dev : Byte) (p : List PortWord) (n : Nat) : (rigged v w dev [] p).Prompt n :=
  fun _ _ => rfl

theorem rigged_wf (v : Variant) (w dev : Byte) (l : List Answer) (p : List PortWord) : (rigged v w dev l p).cfg.wf := by
  cases v
  · exact (by decide : ({ variant := .A } : Config).wf)
  · exact test_default_config_wf

theorem rigged_inv {v : Variant} {w : Byte} (h : w ≤ wiperMax) (dev : Byte) (l : List Answer) (p : List PortWord) :
    (rigged v w dev l p).Inv :=
  ⟨rigged_wf v w dev l p, h, rfl, fun _ => rfl, (fun h => nomatch h), (fun h => nomatch h), fun _ => .inl rfl, fun _ => rfl,
    (⟨List.pairwise_singleton _ _, by simp [rigged]⟩)⟩

theorem at64 : (rigged .B 64#8 64#8 [] []).Inv := rigged_inv (by decide) _ _ _

theorem wf_rigged_B (w dev : Byte) (l : List Answer) (p : List PortWord) : (rigged .B w dev l p).cfg.wf := rigged_wf _ _ _ _ _

/-- A block at step `q` of a terminal or wiper Write `op arg`, with the data byte `d`, `W[0] = 64` and the answers `l` to come. -/
def waitingAt (q : Sq) (op : BitVec 3) (arg d : Byte) (fail : Bool) (l : List Answer) : State :=
  { rigged .B 64#8 64#8 l [requestWord 2#3 0#8] with sq := q, sel := true, op := op, arg := arg, d := d, fail := fail }

/-- A block that waits at the data byte of a WRW 128, with a request at its port. -/
def waiting (l : List Answer) : State := waitingAt .b1 0#3 128#8 128#8 false l

theorem waiting_inv (l : List Answer) : (waiting l).Inv :=
  ⟨rigged_wf .B 64#8 64#8 [] [], at64.w0_le, rfl, (fun h => nomatch h), fun _ => rfl, fun _ => ⟨some 128#8, rfl, rfl⟩,
    (fun h => nomatch h), (fun h => nomatch h), at64.dev_wf⟩

/-- A block whose WRW 128 failed at its data byte and waits at its `Deselect`. -/
def failed (l : List Answer) : State := waitingAt .finish 0#3 128#8 128#8 true l

theorem failed_inv (l : List Answer) : (failed l).Inv :=
  ⟨rigged_wf .B 64#8 64#8 [] [], at64.w0_le, rfl, (fun h => nomatch h), fun _ => rfl, fun _ => ⟨some 128#8, rfl, rfl⟩,
    fun _ => .inr rfl, (fun h => nomatch h), at64.dev_wf⟩

/-- A block that waits at the command byte of a WRW 128. -/
def opened (l : List Answer) : State := waitingAt .b0 0#3 128#8 128#8 false l

theorem opened_inv (l : List Answer) : (opened l).Inv :=
  ⟨rigged_wf .B 64#8 64#8 [] [], at64.w0_le, rfl, (fun h => nomatch h), fun _ => rfl, fun _ => ⟨some 128#8, rfl, rfl⟩,
    (fun h => nomatch h), (fun h => nomatch h), at64.dev_wf⟩

/-- An idle block of variant B at 64 with the request `op arg` at its port. -/
def asked (op : BitVec 3) (arg : Byte) (l : List Answer) : State := rigged .B 64#8 64#8 l [requestWord op arg]

theorem asked_inv (op : BitVec 3) (arg : Byte) (l : List Answer) : (asked op arg l).Inv := rigged_inv (by decide) _ _ _

theorem witness_CommandEncoderLaw : 0#8 ∈ [0#8, 4#8, 8#8, 12#8] ∧ 12#8 ∈ [0#8, 4#8, 8#8, 12#8] := by decide

theorem witness_CommandEncoderMasks : commandByte 5#4 0xFF#8 0xFF#8 = commandByte 5#4 0x0C#8 0x03#8 := by decide

theorem witness_TerminalByteLayout : idle.cfg.wf ∧ idle.sq = .idle ∧ idle.cfg.variant = .B ∧ idle.Lucky 4 :=
  ⟨by decide, rfl, rfl, bench_lucky _ _ _⟩

theorem witness_DecodeOfEncodeIsTheInstruction :
    Config.default.wf ∧ (Instr.busWrite 15#4 3#2 0xFF#8).wf Config.default ∧
      (Instr.busWrite 0#4 1#2 0#8).wf Config.default := by decide

theorem witness_EveryCommandByteDecodes : Config.default.wf := by decide

theorem witness_ResetInputActsOnAnIdleBlock :
    ({ idle with rst := true }.rst = true ∧ { idle with rst := true }.sq = .idle) ∧
    { idle with rst := true, sq := .b0 }.rst = true ∧ { idle with rst := true, sq := .b0 }.sq ≠ .idle := by decide

theorem witness_StepRunsTheDecodedInstruction :
    ∃ (s : State) (w : PortWord) (rest : List PortWord) (i : Instr),
      s.rst = false ∧ s.sq = .idle ∧ s.pending = w :: rest ∧ decode s.cfg w = .ok i :=
  ⟨{ idle with pending := [requestWord 7#3 255#8, requestWord 0#3 0#8] }, _, _, .reserved 255#8, rfl, rfl, rfl, rfl⟩

theorem witness_StepsWithoutAnInstruction :
    (idle.rst = false ∧ idle.sq = .idle ∧ idle.pending = []) ∧
    (∃ (s : State) (w : PortWord) (rest : List PortWord) (e : DecodeError),
      s.rst = false ∧ s.sq = .idle ∧ s.pending = w :: rest ∧ decode s.cfg w = .error e) ∧
    ({ idle with sq := .select }.rst = false ∧ { idle with sq := .select }.sq ≠ .idle) :=
  ⟨⟨rfl, rfl, rfl⟩, ⟨{ idle with pending := [⟨.host, [0#8, 8#8]⟩] }, _, _, .requestTooWide, rfl, rfl, rfl, rfl⟩,
    rfl, by decide⟩

theorem witness_InvariantHoldsAfterReset : ({ variant := .A, initValue := 128#8 } : Config).wf := by decide

theorem witness_inv_idle (v : Variant) : (bench v 128#8).Inv := rigged_inv (by decide) _ _ _

theorem witness_EveryStepKeepsTheInvariant :
    ∃ s t : State, s.Inv ∧ step s = .next t ∧ t ≠ s :=
  ⟨_, _, waiting_inv [], rfl, fun h => nomatch (congrArg State.sq h : Sq.idle = Sq.b1)⟩

theorem witness_SelIsSetExactlyInsideTheBracket :
    ∃ t, (waiting []).sel = (waiting []).sq.inBracket ∧ step (waiting []) = .next t ∧ t.sq = .idle := ⟨_, rfl, rfl, rfl⟩

theorem witness_EveryStepKeepsTheConfiguration : ∃ t, step (asked 2#3 0#8 []) = .next t := ⟨_, rfl⟩

/-- At 128 in variant B, and above it in variant A. -/
theorem witness_WrwCompletes :
    (idle.cfg.wf ∧ idle.sq = .idle ∧ (idle.cfg.variant = .B → (128#8 : Byte).toNat ≤ 128) ∧ idle.Lucky 4) ∧
    ((bench .A 0#8).cfg.wf ∧ (bench .A 0#8).sq = .idle ∧ ((bench .A 0#8).cfg.variant = .B → (255#8 : Byte).toNat ≤ 128) ∧
      (bench .A 0#8).Lucky 4) :=
  ⟨⟨by decide, rfl, by decide, bench_lucky _ _ _⟩, ⟨by decide, rfl, by decide, bench_lucky _ _ _⟩⟩

theorem witness_WrwOutOfRangeIsRejectedByTheStrictVariant :
    idle.sq = .idle ∧ idle.cfg.variant = .B ∧ 128 < (129#8 : Byte).toNat := by decide

theorem witness_RdwCompletes : idle.cfg.wf ∧ idle.sq = .idle ∧ idle.Lucky 6 := ⟨by decide, rfl, bench_lucky _ _ _⟩

/-- At the bound and one below it. -/
theorem witness_IncCompletes :
    ((bench .B 128#8).cfg.wf ∧ (bench .B 128#8).sq = .idle ∧ (bench .B 128#8).Lucky 3 ∧ (bench .B 128#8).w0 = 128#8) ∧
    ((bench .A 127#8).cfg.wf ∧ (bench .A 127#8).sq = .idle ∧ (bench .A 127#8).Lucky 3 ∧ (bench .A 127#8).w0 ≠ 128#8) :=
  ⟨⟨by decide, rfl, bench_lucky _ _ _, rfl⟩, ⟨by decide, rfl, bench_lucky _ _ _, by decide⟩⟩

theorem witness_DecCompletes :
    ((bench .B 0#8).cfg.wf ∧ (bench .B 0#8).sq = .idle ∧ (bench .B 0#8).Lucky 3 ∧ (bench .B 0#8).w0 = 0#8) ∧
    ((bench .A 1#8).cfg.wf ∧ (bench .A 1#8).sq = .idle ∧ (bench .A 1#8).Lucky 3 ∧ (bench .A 1#8).w0 ≠ 0#8) :=
  ⟨⟨by decide, rfl, bench_lucky _ _ _, rfl⟩, ⟨by decide, rfl, bench_lucky _ _ _, by decide⟩⟩

theorem witness_WtcCompletes : idle.cfg.wf ∧ idle.sq = .idle ∧ idle.cfg.variant = .B ∧ idle.Lucky 4 :=
  witness_TerminalByteLayout
theorem witness_EntCompletes : idle.cfg.wf ∧ idle.sq = .idle ∧ idle.cfg.variant = .B ∧ idle.Lucky 4 :=
  witness_TerminalByteLayout
theorem witness_DistCompletes : idle.cfg.wf ∧ idle.sq = .idle ∧ idle.cfg.variant = .B ∧ idle.Lucky 4 :=
  witness_TerminalByteLayout

/-- An idle block, and one that waits at the data byte of ENT and of DIST. -/
theorem witness_PseudoOperationsActAsTheirExpansions :
    idle.sq = .idle ∧
    (∀ op ∈ [5#3, 6#3], (waitingAt .b1 op 0#8 0xFF#8 false []).rst = false ∧ (waitingAt .b1 op 0#8 0xFF#8 false []).sq ≠ .idle ∧
      (waitingAt .b1 op 0#8 0xFF#8 false []).op = op) :=
  ⟨rfl, fun _ _ => ⟨rfl, (fun h => nomatch h), rfl⟩⟩

theorem witness_ReservedRequestCompletes : idle.sq = .idle := rfl
theorem witness_TerminalOperationsAreUnsupportedInTheLenientVariant :
    (bench .A 64#8).sq = .idle ∧ (bench .A 64#8).cfg.variant = .A := ⟨rfl, rfl⟩

/-- Either variant, a transport under no law. -/
theorem witness_BusWriteFramesComplete :
    (idle.cfg.wf ∧ idle.sq = .idle) ∧ (bench .A 0#8).cfg.wf ∧ { bench .A 0#8 with link := .free }.sq = .idle := by decide
theorem witness_BusStepFramesComplete : idle.cfg.wf ∧ idle.sq = .idle := ⟨by decide, rfl⟩
theorem witness_BusReadFramesComplete : idle.cfg.wf ∧ idle.sq = .idle := ⟨by decide, rfl⟩

/-- No failed byte; one in this step; one in an earlier step; one in this step, the operation left waiting. -/
theorem witness_TransportFailureMeansAFailedByte :
    (∃ t, (asked 0#3 5#8 []).Inv ∧ step (asked 0#3 5#8 []) = .next t ∧ t.rspValid = true ∧ t.status = .ok) ∧
    (∃ t, (waiting [bad]).Inv ∧ step (waiting [bad]) = .next t ∧ t.rspValid = true ∧ t.status = .transportFailure) ∧
    (∃ t, (failed []).Inv ∧ (failed []).AlreadyFailed ∧ step (failed []) = .next t ∧ t.rspValid = true ∧
      t.status = .transportFailure) ∧
    (∃ t, (waiting [bad, never]).Inv ∧ step (waiting [bad, never]) = .next t ∧ t.AlreadyFailed) :=
  ⟨⟨_, asked_inv _ _ _, rfl, rfl, rfl⟩, ⟨_, waiting_inv _, rfl, rfl, rfl⟩, ⟨_, failed_inv _, ⟨rfl, rfl⟩, rfl, rfl, rfl⟩,
    ⟨_, waiting_inv _, rfl, rfl, rfl⟩⟩

/-- A failed byte in this step, the bracket closed or left open, and one in an earlier step. -/
theorem witness_FailedByteIsFollowedByDeselect :
    (∃ t, (asked 0#3 5#8 [good, good, bad]).Inv ∧ step (asked 0#3 5#8 [good, good, bad]) = .next t ∧
      BusTraffic (asked 0#3 5#8 [good, good, bad]) t
        ([.selected, .wrote 0x00#8 true] ++ .wrote 0x05#8 false :: [.deselected]) ∧ (Event.wrote 0x05#8 false).failed = true) ∧
    (∃ t, (waiting [bad, never]).Inv ∧ step (waiting [bad, never]) = .next t ∧
      BusTraffic (waiting [bad, never]) t ([] ++ .wrote 0x80#8 false :: [])) ∧
    (∃ t, (failed [never]).Inv ∧ (failed [never]).AlreadyFailed ∧ step (failed [never]) = .next t) :=
  ⟨⟨_, asked_inv _ _ _, rfl, rfl, rfl⟩, ⟨_, waiting_inv _, rfl, rfl⟩, ⟨_, failed_inv _, ⟨rfl, rfl⟩, rfl⟩⟩

/-- Ended from idle and from inside the bracket; left waiting outside it, and inside; a step that starts nothing. -/
theorem witness_EveryBracketIsClosedOnce :
    (∃ t, (asked 0#3 5#8 []).Inv ∧ step (asked 0#3 5#8 []) = .next t ∧ t.rspValid = true ∧ (asked 0#3 5#8 []).sel = false) ∧
    (∃ t, (waiting []).Inv ∧ step (waiting []) = .next t ∧ t.rspValid = true ∧ (waiting []).sel = true) ∧
    (∃ t, (asked 0#3 5#8 [never]).Inv ∧ step (asked 0#3 5#8 [never]) = .next t ∧ t.sq ≠ .idle ∧ t.sel = false) ∧
    (∃ t, (asked 0#3 5#8 [good, never]).Inv ∧ step (asked 0#3 5#8 [good, never]) = .next t ∧ t.sq ≠ .idle ∧ t.sel = true) ∧
    (∃ t, (waiting [never]).Inv ∧ step (waiting [never]) = .next t ∧ t.sq ≠ .idle ∧ (waiting [never]).sel = true) ∧
    (∃ t, idle.Inv ∧ step idle = .next t ∧ t.rspValid = false ∧ t.sq = .idle) :=
  ⟨⟨_, asked_inv _ _ _, rfl, rfl, rfl⟩, ⟨_, waiting_inv _, rfl, rfl, rfl⟩, ⟨_, asked_inv _ _ _, rfl, (fun h => nomatch h), rfl⟩,
    ⟨_, asked_inv _ _ _, rfl, (fun h => nomatch h), rfl⟩, ⟨_, waiting_inv _, rfl, (fun h => nomatch h), rfl⟩,
    ⟨_, rigged_inv (by decide) _ _ _, rfl, rfl, rfl⟩⟩

/-- The step that took the request, and a later one. -/
theorem witness_HungOperationChangesNoRegister :
    (∃ t, (asked 0#3 5#8 [good, good, never]).Inv ∧ step (asked 0#3 5#8 [good, good, never]) = .next t ∧ t.sq ≠ .idle) ∧
    (∃ t, (waiting [never]).Inv ∧ (waiting [never]).sq ≠ .idle ∧ step (waiting [never]) = .next t ∧ t.sq ≠ .idle) :=
  ⟨⟨_, asked_inv _ _ _, rfl, (fun h => nomatch h)⟩, ⟨_, waiting_inv _, (fun h => nomatch h), rfl, (fun h => nomatch h)⟩⟩

/-- A request left at `Select`, one rejected before it, and a busy block whose primitive does not complete. -/
theorem witness_StalledPrimitiveHoldsTheBlock :
    (∃ t, (Instr.inc 0#8).isRequest = true ∧ (scripted [never] idle).sq = .idle ∧ ((scripted [never] idle).answerAt 0).done = false ∧
      exec (.inc 0#8) (scripted [never] idle) = .next t ∧ t.sq = .select) ∧
    (∃ t, (Instr.wrw 129#8).isRequest = true ∧ (scripted [never] idle).sq = .idle ∧
      ((scripted [never] idle).answerAt 0).done = false ∧ exec (.wrw 129#8) (scripted [never] idle) = .next t ∧
      t.status = .rangeViolation) ∧
    ((waiting [never]).Inv ∧ (waiting [never]).rst = false ∧ (waiting [never]).sq.pastCheck = true ∧
      ((waiting [never]).answerAt 0).done = false) :=
  ⟨⟨_, rfl, rfl, rfl, rfl, rfl⟩, ⟨_, rfl, rfl, rfl, rfl, rfl⟩, waiting_inv _, rfl, rfl, rfl⟩

theorem witness_OperationsEndWhenTheTransportAnswers :
    (idle.sq = .idle ∧ idle.Prompt 6) ∧
    ((waiting []).Inv ∧ (waiting []).rst = false ∧ (waiting []).sq ≠ .idle ∧ (waiting []).Prompt 6) :=
  ⟨⟨rfl, rigged_prompt _ _ _ _ _⟩, waiting_inv _, rfl, (fun h => nomatch h), fun _ _ => rfl⟩

/-- An operation rejected at CHECK, and one that waited at its data byte, which then fails. -/
theorem witness_ErrorLeavesTheShadowRegisters :
    (∃ t, (asked 0#3 129#8 []).Inv ∧ step (asked 0#3 129#8 []) = .next t ∧ t.sq = .idle ∧ t.rspValid = true ∧ t.status ≠ .ok) ∧
    (∃ t, (waiting [bad]).Inv ∧ step (waiting [bad]) = .next t ∧ t.sq = .idle ∧ t.rspValid = true ∧ t.status ≠ .ok) :=
  ⟨⟨_, asked_inv _ _ _, rfl, rfl, rfl, (fun h => nomatch h)⟩, ⟨_, waiting_inv _, rfl, rfl, rfl, (fun h => nomatch h)⟩⟩

/-- A block at step `q` of a RDW of which only the steps from `q` on are left, `lo` in its latch and the answers `l` to come. -/
def reading (q : Sq) (lo : Byte) (l : List Answer) : State :=
  { rigged .B 64#8 64#8 l [] with link := .free, sq := q, sel := true, op := 1#3, lo := lo }

theorem reading_inv {q : Sq} (h : q = .b3 ∨ q = .finish) (lo : Byte) (l : List Answer) : (reading q lo l).Inv := by
  rcases h with rfl | rfl <;>
    exact ⟨rigged_wf .B 64#8 64#8 [] [], at64.w0_le, rfl, (fun h => nomatch h), fun _ => rfl, fun _ => ⟨none, rfl, rfl⟩,
      (fun h => nomatch h), (fun h => nomatch h), at64.dev_wf⟩

/-- A low byte of 129 and a step at each bound, each in one step; an RDW that waited at its low byte, which is 128 or 129, and one
that waited at its `Deselect`. -/
theorem witness_ValueErrorsComeAfterAWholeFrame :
    (∃ t, (rigged .B 64#8 129#8 [] [requestWord 1#3 0#8]).Inv ∧ step (rigged .B 64#8 129#8 [] [requestWord 1#3 0#8]) = .next t ∧
      t.rspValid = true ∧ t.status = .integrityViolation) ∧
    (∃ t, (rigged .B 128#8 128#8 [] [requestWord 2#3 0#8]).Inv ∧ step (rigged .B 128#8 128#8 [] [requestWord 2#3 0#8]) = .next t ∧
      t.rspValid = true ∧ t.status = .alreadyAtBound) ∧
    (∃ t, (rigged .A 0#8 0#8 [] [requestWord 3#3 0#8]).Inv ∧ step (rigged .A 0#8 0#8 [] [requestWord 3#3 0#8]) = .next t ∧
      t.rspValid = true ∧ t.status = .alreadyAtBound) ∧
    (∃ t, (reading .b3 7#8 [⟨true, true, 128#8⟩, good]).Inv ∧ step (reading .b3 7#8 [⟨true, true, 128#8⟩, good]) = .next t ∧
      t.rspValid = true ∧ t.op = 1#3 ∧ t.status = .ok ∧ t.rdata = 128#8) ∧
    (∃ t, (reading .b3 7#8 [⟨true, true, 129#8⟩, good]).Inv ∧ step (reading .b3 7#8 [⟨true, true, 129#8⟩, good]) = .next t ∧
      t.rspValid = true ∧ t.op = 1#3 ∧ ¬ (reading .b3 7#8 [⟨true, true, 129#8⟩, good]).AlreadyFailed ∧ 128 < t.lo.toNat ∧
      BusTraffic (reading .b3 7#8 [⟨true, true, 129#8⟩, good]) t [.got 129#8 true, .deselected]) ∧
    (∃ t, (reading .finish 128#8 [good]).Inv ∧ step (reading .finish 128#8 [good]) = .next t ∧ t.rspValid = true ∧
      t.status = .ok ∧ t.rdata = 128#8) :=
  ⟨⟨_, rigged_inv (by decide) _ _ _, rfl, rfl, rfl⟩, ⟨_, rigged_inv (by decide) _ _ _, rfl, rfl, rfl⟩,
    ⟨_, rigged_inv (by decide) _ _ _, rfl, rfl, rfl⟩, ⟨_, reading_inv (.inl rfl) _ _, rfl, rfl, rfl, rfl, rfl⟩,
    ⟨_, reading_inv (.inl rfl) _ _, rfl, rfl, rfl, (fun h => nomatch h.1), by decide, rfl⟩,
    ⟨_, reading_inv (.inr rfl) _ _, rfl, rfl, rfl, rfl⟩⟩

/-- An instruction that writes neither register; then each opcode that writes one, from idle, and a WRW that waited. -/
theorem witness_ShadowRegistersHaveTheirOwnWriters :
    ((∃ t, exec (.rdw 0#8) idle = .next t) ∧ writesWiper (.rdw 0#8) = false ∧ writesTerminals (.rdw 0#8) = false) ∧
    (∀ op ∈ [0#3, 2#3, 3#3], ∃ t, (asked op 5#8 []).Inv ∧ (asked op 5#8 []).rst = false ∧ step (asked op 5#8 []) = .next t ∧
      t.rspValid = true ∧ t.status = .ok ∧ t.op = op ∧ t.w0 ≠ (asked op 5#8 []).w0) ∧
    (∀ op ∈ [4#3, 5#3, 6#3], ∃ t, (asked op 5#8 []).Inv ∧ (asked op 5#8 []).rst = false ∧ step (asked op 5#8 []) = .next t ∧
      t.rspValid = true ∧ t.status = .ok ∧ t.op = op ∧ t.tc ≠ (asked op 5#8 []).tc) ∧
    (∃ t, (waiting []).Inv ∧ (waiting []).rst = false ∧ (waiting []).sq ≠ .idle ∧ step (waiting []) = .next t ∧
      t.rspValid = true ∧ t.status = .ok ∧ t.w0 ≠ (waiting []).w0) := by
  refine ⟨⟨⟨_, rfl⟩, rfl, rfl⟩, ?_, ?_, ⟨_, waiting_inv _, rfl, (fun h => nomatch h), rfl, rfl, rfl, by decide⟩⟩ <;>
    simp only [List.mem_cons, List.not_mem_nil, or_false, forall_eq_or_imp, forall_eq] <;>
    exact ⟨⟨_, asked_inv _ _ _, rfl, rfl, rfl, rfl, rfl, by decide⟩, ⟨_, asked_inv _ _ _, rfl, rfl, rfl, rfl, rfl, by decide⟩,
      ⟨_, asked_inv _ _ _, rfl, rfl, rfl, rfl, rfl, by decide⟩⟩

/-- A bracket that opens in this step, and one that was open with no byte sent. -/
theorem witness_StepsEmitOnlyTheFiveCommandBytes :
    (∃ t, (asked 0#3 5#8 []).Inv ∧ (asked 0#3 5#8 []).sel = false ∧ step (asked 0#3 5#8 []) = .next t ∧
      BusTraffic (asked 0#3 5#8 []) t (.selected :: .wrote 0x00#8 true :: [.wrote 0x05#8 true, .deselected])) ∧
    (∃ t, (opened []).Inv ∧ (opened []).sq = .b0 ∧ step (opened []) = .next t ∧
      BusTraffic (opened []) t (.wrote 0x00#8 true :: [.wrote 0x80#8 true, .deselected])) :=
  ⟨⟨_, asked_inv _ _ _, rfl, rfl, rfl⟩, ⟨_, opened_inv _, rfl, rfl, rfl⟩⟩

/-- A rejected operation, one that goes through, one whose second byte fails, and one whose byte fails after it waited. -/
theorem witness_PrimitiveCounts :
    (∃ t, (asked 0#3 129#8 []).Inv ∧ step (asked 0#3 129#8 []) = .next t ∧ t.rspValid = true ∧ t.status = .rangeViolation) ∧
    (∃ t, (asked 1#3 0#8 []).Inv ∧ step (asked 1#3 0#8 []) = .next t ∧ t.rspValid = true ∧ t.status = .ok) ∧
    (∃ t, (asked 0#3 5#8 [good, good, bad]).Inv ∧ (asked 0#3 5#8 [good, good, bad]).sel = false ∧
      step (asked 0#3 5#8 [good, good, bad]) = .next t ∧ t.rspValid = true ∧
      BusTraffic (asked 0#3 5#8 [good, good, bad]) t (.selected :: [.wrote 0x00#8 true] ++ .wrote 0x05#8 false :: [.deselected])) ∧
    (∃ t, (waiting [bad]).Inv ∧ (waiting [bad]).sel = true ∧ step (waiting [bad]) = .next t ∧ t.rspValid = true ∧
      BusTraffic (waiting [bad]) t ([] ++ .wrote 0x80#8 false :: [.deselected])) :=
  ⟨⟨_, asked_inv _ _ _, rfl, rfl, rfl⟩, ⟨_, asked_inv _ _ _, rfl, rfl, rfl⟩, ⟨_, asked_inv _ _ _, rfl, rfl, rfl, rfl⟩,
    ⟨_, waiting_inv _, rfl, rfl, rfl, rfl⟩⟩

/-- Variant A; variant B with and without a value in `TC`; a terminal operation that ends with OK. -/
theorem witness_DiagnosticsPortReportsTheRegisters :
    (bench .A 64#8).cfg.variant = .A ∧ (idle.cfg.variant = .B ∧ idle.tc = none) ∧
    { idle with tc := some ⟨false, true, false⟩ }.tc = some ⟨false, true, false⟩ ∧
    (∃ t, (asked 4#3 0xFB#8 []).Inv ∧ step (asked 4#3 0xFB#8 []) = .next t ∧ t.rspValid = true ∧ t.status = .ok ∧
      terminalOp t.op = true) :=
  ⟨rfl, ⟨rfl, rfl⟩, rfl, ⟨_, asked_inv _ _ _, rfl, rfl, rfl, rfl⟩⟩

/-- A request at a ready block, and behind it a frame of the bus; a response with each of the numbers 2 to 5, the last in either
variant. -/
theorem witness_HostPortSignalsShowTheBlock :
    ((asked 6#3 9#8 []).pending = requestWord 6#3 9#8 :: [] ∧ (asked 6#3 9#8 []).rst = false ∧ (asked 6#3 9#8 []).reqReady = true) ∧
    { idle with pending := [⟨.bus, [0x04#8]⟩] }.pending = ⟨.bus, [0x04#8]⟩ :: [] ∧
    (∃ t, (asked 0#3 129#8 []).Inv ∧ step (asked 0#3 129#8 []) = .next t ∧ t.rspValid = true ∧ t.rspStatus = 0b010#3) ∧
    (∃ t, (rigged .B 64#8 129#8 [] [requestWord 1#3 0#8]).Inv ∧ step (rigged .B 64#8 129#8 [] [requestWord 1#3 0#8]) = .next t ∧
      t.rspValid = true ∧ t.rspStatus = 0b011#3) ∧
    (∃ t, (rigged .B 128#8 128#8 [] [requestWord 2#3 0#8]).Inv ∧ step (rigged .B 128#8 128#8 [] [requestWord 2#3 0#8]) = .next t ∧
      t.rspValid = true ∧ t.rspStatus = 0b100#3) ∧
    (∃ t, (asked 7#3 0#8 []).Inv ∧ step (asked 7#3 0#8 []) = .next t ∧ t.rspValid = true ∧ t.rspStatus = 0b101#3) ∧
    (∃ t, (rigged .A 64#8 64#8 [] [requestWord 4#3 0#8]).Inv ∧ step (rigged .A 64#8 64#8 [] [requestWord 4#3 0#8]) = .next t ∧
      t.rspValid = true ∧ t.rspStatus = 0b101#3) :=
  ⟨⟨rfl, rfl, rfl⟩, rfl, ⟨_, asked_inv _ _ _, rfl, rfl, rfl⟩, ⟨_, rigged_inv (by decide) _ _ _, rfl, rfl, rfl⟩,
    ⟨_, rigged_inv (by decide) _ _ _, rfl, rfl, rfl⟩, ⟨_, asked_inv _ _ _, rfl, rfl, rfl⟩,
    ⟨_, rigged_inv (by decide) _ _ _, rfl, rfl, rfl⟩⟩

/-- An idle block; a WRW at `Select`, at its command byte, at its data byte and at `Deselect`; an RDW at each of its other bytes. -/
theorem witness_TransportPortSignalsShowThePrimitive :
    idle.Inv ∧
    (∀ q ∈ [Sq.select, .b0, .b1, .finish],
      { waiting [] with sq := q, sel := q.inBracket }.Inv ∧ { waiting [] with sq := q, sel := q.inBracket }.sq = q) ∧
    (∀ q ∈ [Sq.b1, .b2, .b3], { reading .b3 0#8 [] with sq := q }.Inv ∧ { reading .b3 0#8 [] with sq := q }.sq = q) := by
  refine ⟨at64, ?_, ?_⟩ <;> simp only [List.mem_cons, List.not_mem_nil, or_false, forall_eq_or_imp, forall_eq]
  · refine ⟨⟨?_, trivial⟩, ⟨?_, trivial⟩, ⟨?_, trivial⟩, ?_, trivial⟩ <;>
      exact ⟨rigged_wf .B 64#8 64#8 [] [], at64.w0_le, rfl, (fun h => nomatch h), fun _ => rfl, fun _ => ⟨some 128#8, rfl, rfl⟩,
        (fun h => nomatch h), (fun h => nomatch h), at64.dev_wf⟩
  · refine ⟨⟨?_, trivial⟩, ⟨?_, trivial⟩, ?_, trivial⟩ <;>
      exact ⟨rigged_wf .B 64#8 64#8 [] [], at64.w0_le, rfl, (fun h => nomatch h), fun _ => rfl, fun _ => ⟨none, rfl, rfl⟩,
        (fun h => nomatch h), (fun h => nomatch h), at64.dev_wf⟩

theorem witness_WriteThenReadReturnsTheValue :
    ∃ t, idle.cfg.wf ∧ idle.link = .reference ∧ idle.sq = .idle ∧ (128#8 : Byte).toNat ≤ 128 ∧
      exec (.wrw 128#8) idle = .next t ∧ t.sq = .idle ∧ t.status = .ok ∧ t.Lucky 6 :=
  ⟨_, by decide, rfl, rfl, by decide, rfl, rfl, rfl, fun _ _ => ⟨rfl, rfl⟩⟩

/-- The data byte of a WRW fails. -/
def failing : State := scripted [good, good, bad] idle

/-- The agreement at both bounds, and the failed data byte. -/
theorem witness_ShadowAndPeerStayInAgreement :
    (∀ w ∈ [0#8, 128#8], (bench .B w).cfg.wf ∧ (bench .B w).link = .reference ∧ (bench .B w).sq = .idle ∧
      (bench .B w).w0.toNat ≤ 128 ∧ (bench .B w).peer.get (bench .B w).cfg.addrWiper0 = (bench .B w).w0) ∧
    (∀ w, (bench .B w).Lucky 6) ∧ (∃ t, exec (.inc 0#8) (bench .B 128#8) = .next t) ∧
    (∃ t, exec (.dec 0#8) (bench .B 0#8) = .next t) ∧
    (failing.cfg.wf ∧ failing.link = .reference ∧ failing.w0.toNat ≤ 128 ∧
      failing.peer.get failing.cfg.addrWiper0 = failing.w0 ∧ (failing.answerAt 2).ok = false) ∧
    failing.Lucky 2 ∧ failing.Prompt 4 ∧ (∃ t, exec (.wrw 5#8) failing = .next t) := by
  refine ⟨by simp only [List.mem_cons, List.not_mem_nil, or_false, forall_eq_or_imp, forall_eq]; decide, fun w => bench_lucky _ _ _, ⟨_, rfl⟩, ⟨_, rfl⟩,
    by decide, ?_, ?_, ⟨_, rfl⟩⟩
  · intro k hk; match k, hk with | 0, _ => exact ⟨rfl, rfl⟩ | 1, _ => exact ⟨rfl, rfl⟩
  · intro k hk; match k, hk with | 0, _ => rfl | 1, _ => rfl | 2, _ => rfl | 3, _ => rfl

/-- The shadow at `w`, the device at `v`. -/
def split (w v : Byte) : State := rigged .B w v [] []

/-- Each of the four clauses at its boundary. -/
theorem witness_StepAtTheBoundIsDecidedOnTheShadow :
    (∀ w v : Byte, (split w v).cfg.wf ∧ (split w v).link = .reference ∧ (split w v).sq = .idle ∧ (split w v).Lucky 3) ∧
    ((split 128#8 127#8).w0 = 128#8 ∧ ((split 128#8 127#8).peer.get 0#4).toNat < 128) ∧
    ((split 127#8 128#8).w0.toNat < 128 ∧ (split 127#8 128#8).peer.get 0#4 = 128#8) ∧
    ((split 0#8 1#8).w0 = 0#8 ∧ 0 < ((split 0#8 1#8).peer.get 0#4).toNat) ∧
    (0 < (split 1#8 0#8).w0.toNat ∧ (split 1#8 0#8).peer.get 0#4 = 0#8) :=
  ⟨fun _ _ => ⟨rigged_wf _ _ _ _ _, rfl, rfl, rigged_lucky _ _ _ _ _⟩, by decide, by decide, by decide, by decide⟩

/-- Each branch at its boundary, the bumped value, and a WRW that finishes. -/
theorem witness_SpeedToWiperStaysInRange :
    ((0 : Int) ≤ 0) ∧ ((0 : Int) < 1 ∧ (1 : Int) ≤ 1) ∧ ((0 : Int) < 1 ∧ (1 : Int) < 2) ∧ ((1 : Int) * 128 < 129) ∧
    (∃ t, idle.sq = .idle ∧ exec (.wrw (BitVec.ofNat 8 (speedToWiper 1 129))) idle = .next t ∧ t.sq = .idle) :=
  ⟨by decide, by decide, by decide, by decide, ⟨_, rfl, rfl, rfl⟩⟩

/-- A healthy adapter that has been set up, nothing to do. -/
def ready (s : State) : Rig := fan s false true .ready []

/-- An adapter whose setup has not been called. -/
def unset (s : State) : Rig := fan s false false .ready []

theorem ready_healthy (s : State) : (ready s).fan.healthy := ⟨rfl, rfl, rfl⟩

theorem witness_FanIsCreatedWithAFixedSpeedCount :
    Config.default.wf ∧ ¬ ({ initValue := 129#8 } : Config).wf ∧ (∃ r', (ready idle).step = .next r') :=
  ⟨by decide, by decide, ⟨_, rfl⟩⟩

/-- Setup called; WRW 0 left waiting at its data byte; DIST left waiting at its data byte. Of the cached value: WRW 0 goes through
at once with DIST left waiting, waits, and fails; taken up, it goes through with DIST failing, waits again, and fails; DIST taken up;
creation; and a step from an adapter whose cached value is current. -/
theorem witness_FanSetupLeavesTheFanOff (v : Variant) :
    ((unset (bench v 9#8)).dpc.cfg.wf ∧ (unset (bench v 9#8)).dpc.sq = .idle ∧ (unset (bench v 9#8)).dpc.sel = false ∧
      (unset (bench v 9#8)).fan.setUp = false ∧ (unset (bench v 9#8)).dpc.Lucky 8 ∧ (unset (bench v 9#8)).dpc.cfg.variant = v) ∧
    (∃ r : Rig, r.Awaits .setupWiper 0#3 ∧ r.dpc.arg = 0#8 ∧ r.fan.setUp = true ∧ r.dpc.Lucky 8) ∧
    (∃ r : Rig, r.Awaits (.setupTerminals .ok) 6#3 ∧ r.dpc.cfg.variant = .B ∧ r.dpc.w0 = 0#8 ∧ r.fan.setUp = true ∧
      r.fan.Current ∧ r.fan.task = .setupTerminals .ok ∧ r.dpc.Lucky 4) ∧
    (∃ r' s, (unset (scripted [good, good, good, good, never] idle)).setup = .next r' ∧
      exec (.wrw 0#8) (scripted [good, good, good, good, never] idle) = .next s ∧ s.sq = .idle ∧ s.status = .ok ∧
      r'.fan.task = .setupTerminals .ok ∧ r'.fan.cachedWiper = some 0#8) ∧
    (∃ r' s, (unset (scripted [never] idle)).setup = .next r' ∧ exec (.wrw 0#8) (scripted [never] idle) = .next s ∧
      s.sq ≠ .idle) ∧
    (∃ r' s, (unset (scripted [good, bad] idle)).setup = .next r' ∧ exec (.wrw 0#8) (scripted [good, bad] idle) = .next s ∧
      s.sq = .idle ∧ s.status ≠ .ok) ∧
    (∃ r', (fan (waiting [good, good, good, bad]) false true .setupWiper []).step = .next r' ∧
      (waiting [good, good, good, bad]).resume.sq = .idle ∧ (waiting [good, good, good, bad]).resume.status = .ok ∧
      r'.fan.failed = true ∧ r'.fan.cachedWiper = some 0#8) ∧
    (∃ r', (fan (waiting [never]) false true .setupWiper []).step = .next r' ∧ (waiting [never]).resume.sq ≠ .idle) ∧
    (∃ r', (fan (waiting [bad]) false true .setupWiper []).step = .next r' ∧ (waiting [bad]).resume.status ≠ .ok) ∧
    (∃ r', (fan (waiting [bad]) false true (.setupTerminals .ok) []).step = .next r') ∧
    (∃ r, Rig.create Config.default 4 = .next r) ∧
    (∃ r', (fan (waiting []) false true .setupWiper []).step = .next r' ∧
      (fan (waiting []) false true .setupWiper []).fan.Current) := by
  refine ⟨⟨rigged_wf _ _ _ _ _, rfl, rfl, rfl, bench_lucky _ _ _, rfl⟩,
    ⟨fan (waitingAt .b1 0#3 0#8 0#8 false []) false true .setupWiper [],
      ⟨rfl, ⟨rigged_wf .B 64#8 64#8 [] [], by decide, rfl, (fun h => nomatch h), fun _ => rfl, fun _ => ⟨some 0#8, rfl, rfl⟩,
        (fun h => nomatch h), (fun h => nomatch h), by decide⟩, (fun h => nomatch h), rfl, rfl⟩, rfl, rfl,
      fun _ _ => ⟨rfl, rfl⟩⟩,
    ⟨⟨{ waitingAt .b1 6#3 0#8 0xF1#8 false [] with w0 := 0#8 },
      { (ready idle).fan with cachedWiper := some 0#8, task := .setupTerminals .ok }, []⟩,
      ⟨rfl, ⟨rigged_wf .B 64#8 64#8 [] [], by decide, rfl, (fun h => nomatch h), fun _ => rfl, fun _ => ⟨some 0xF1#8, rfl, rfl⟩,
        (fun h => nomatch h), (fun h => nomatch h), by decide⟩, (fun h => nomatch h), rfl, rfl⟩, rfl, rfl, rfl, fun _ => rfl, rfl,
      fun _ _ => ⟨rfl, rfl⟩⟩,
    ⟨_, _, rfl, rfl, rfl, rfl, rfl, rfl⟩, ⟨_, _, rfl, rfl, (fun h => nomatch h)⟩, ⟨_, _, rfl, rfl, rfl, (fun h => nomatch h)⟩,
    ⟨_, rfl, rfl, rfl, rfl, rfl⟩, ⟨_, rfl, (fun h => nomatch h)⟩, ⟨_, rfl, (fun h => nomatch h)⟩, ⟨_, rfl⟩, ⟨_, rfl⟩,
    ⟨_, rfl, (fun h => nomatch h)⟩⟩

/-- An operation that waits again; one that is taken up; setup; a control request. -/
theorem witness_FanWaitsForItsBlock :
    (∃ r : Rig, r.fan.task ≠ .ready ∧ r.dpc.resume.sq ≠ .idle) ∧
    (∃ r : Rig, r.dpc.Inv ∧ r.fan.task ≠ .ready ∧ r.dpc.Prompt 10) ∧
    (∃ (r : Rig) (rest : List Call), r.dpc.Inv ∧ r.dpc.sq = .idle ∧ r.fan.task = .ready ∧ r.fan.setUp = false ∧
      r.calls = .setup :: rest ∧ r.dpc.Prompt 8) ∧
    (∃ (r : Rig) (q : ControlRequest) (rest : List Call), r.dpc.Inv ∧ r.dpc.sq = .idle ∧ r.fan.healthy ∧
      r.calls = .control q :: rest ∧ r.dpc.Prompt 8) :=
  ⟨⟨fan (waiting [never]) false true (.speeding 4) [], (fun h => nomatch h), (fun h => nomatch h)⟩,
    ⟨fan (waiting []) false true (.speeding 4) [], waiting_inv _, (fun h => nomatch h), fun _ _ => rfl⟩,
    ⟨fan idle false false .ready [.setup], [], rigged_inv (by decide) _ _ _, rfl, rfl, rfl, rfl, rigged_prompt _ _ _ _ _⟩,
    ⟨fan idle false true .ready [.control ⟨some true, some 1⟩], _, [], rigged_inv (by decide) _ _ _, rfl, ⟨rfl, rfl, rfl⟩, rfl,
      rigged_prompt _ _ _ _ _⟩⟩

/-- A doomed adapter; a failed one; WRW 0 failing at once, and when taken up; DIST failing in the step of setup, in the
step that takes up WRW 0, and when taken up itself; a control request. -/
theorem witness_FanFailedFlagStands :
    (∃ r' : Rig, (fan idle false true (.setupTerminals .transportFailure) []).step = .next r' ∧
      (fan idle false true (.setupTerminals .transportFailure) []).fan.doomed = true) ∧
    (∃ r', (fan idle true true .ready []).step = .next r' ∧ (fan idle true true .ready []).fan.failed = true) ∧
    (∃ r' s, (unset (scripted [good, bad] idle)).setup = .next r' ∧ exec (.wrw 0#8) (scripted [good, bad] idle) = .next s ∧
      s.sq = .idle ∧ s.status ≠ .ok) ∧
    (∃ r', (fan (waiting [bad]) false true .setupWiper []).step = .next r' ∧ (waiting [bad]).resume.sq = .idle ∧
      (waiting [bad]).resume.status ≠ .ok) ∧
    (∃ r' s u, (unset (scripted [good, good, good, good, good, bad] idle)).setup = .next r' ∧ idle.cfg.variant = .B ∧
      exec (.wrw 0#8) (scripted [good, good, good, good, good, bad] idle) = .next s ∧ s.sq = .idle ∧
      exec (.dist 0#8) s = .next u ∧ u.sq = .idle ∧ u.status ≠ .ok) ∧
    (∃ r' u, (fan (waiting [good, good, good, bad]) false true .setupWiper []).step = .next r' ∧
      (waiting [good, good, good, bad]).cfg.variant = .B ∧ (waiting [good, good, good, bad]).resume.sq = .idle ∧
      exec (.dist 0#8) (waiting [good, good, good, bad]).resume = .next u ∧ u.sq = .idle ∧ u.status ≠ .ok) ∧
    (∃ r', (fan (waiting [bad]) false true (.setupTerminals .ok) []).step = .next r') ∧
    (∃ r', (fan idle false true .ready [.control ⟨some false, none⟩]).step = .next r' ∧
      (fan idle false true .ready [.control ⟨some false, none⟩]).inControl = true) :=
  ⟨⟨_, rfl, rfl⟩, ⟨_, rfl, rfl⟩, ⟨_, _, rfl, rfl, rfl, (fun h => nomatch h)⟩, ⟨_, rfl, rfl, (fun h => nomatch h)⟩,
    ⟨_, _, _, rfl, rfl, rfl, rfl, rfl, rfl, (fun h => nomatch h)⟩, ⟨_, _, rfl, rfl, rfl, rfl, rfl, (fun h => nomatch h)⟩, ⟨_, rfl⟩, ⟨_, rfl, rfl⟩⟩

theorem witness_FanRefusals :
    ((fan idle true true .ready []).fan.setUp = true ∧ (fan idle true true .ready []).fan.failed = true) ∧
    (unset idle).fan.setUp = false ∧ (ready idle).fan.setUp = true ∧ (ready idle).fan.healthy :=
  ⟨⟨rfl, rfl⟩, rfl, rfl, ready_healthy _⟩

/-- The request at an idle block, its operation at once and left waiting; an operation taken up, and left waiting again. -/
theorem witness_FanSwitchPart :
    ((ready idle).dpc.cfg.wf ∧ (ready idle).dpc.cfg.variant = .B ∧ (ready idle).dpc.sq = .idle ∧ (ready idle).fan.healthy ∧
      (ready idle).dpc.Lucky 4) ∧
    (∃ r' u, (ready idle).startSwitch (some false) none = .next r' ∧ exec (.dist 0#8) idle = .next u ∧ u.sq = .idle) ∧
    (∃ r' u, (ready (scripted [never] idle)).startSwitch (some true) none = .next r' ∧
      exec (.ent 0#8) (scripted [never] idle) = .next u ∧ u.sq ≠ .idle) ∧
    (∃ r', (fan (waiting []) false true (.switching false none) []).step = .next r' ∧ (waiting []).resume.sq = .idle) ∧
    (∃ r', (fan (waiting [never]) false true (.switching false none) []).step = .next r' ∧ (waiting [never]).resume.sq ≠ .idle) :=
  ⟨⟨wf_rigged_B _ _ _ _, rfl, rfl, ready_healthy _, bench_lucky _ _ _⟩, ⟨_, _, rfl, rfl, rfl⟩, ⟨_, _, rfl, rfl, (fun h => nomatch h)⟩,
    ⟨_, rfl, rfl⟩, ⟨_, rfl, (fun h => nomatch h)⟩⟩

/-- The speed write goes through, fails, and waits; each also in a later step; a request at a ready adapter; a terminal write that
waits before the speed write. -/
theorem witness_FanSpeedPart :
    (∃ r', (ready idle).startSpeed (some 3) = .next r' ∧ r'.dpc.sq = .idle ∧ r'.dpc.status = .ok) ∧
    (∃ r', (ready failing).startSpeed (some 3) = .next r' ∧ r'.dpc.sq = .idle ∧ r'.dpc.status ≠ .ok) ∧
    (∃ r', (ready (scripted [never] idle)).startSpeed (some 3) = .next r' ∧ r'.dpc.sq ≠ .idle) ∧
    (∃ r', (fan (waiting []) false true (.speeding 4) []).step = .next r' ∧ r'.dpc.sq = .idle ∧ r'.dpc.status = .ok) ∧
    (∃ r', (fan (waiting [bad]) false true (.speeding 4) []).step = .next r' ∧ r'.dpc.sq = .idle ∧ r'.dpc.status ≠ .ok) ∧
    (∃ r', (fan (waiting [never]) false true (.speeding 4) []).step = .next r' ∧ r'.dpc.sq ≠ .idle) ∧
    ((ready idle).dpc.cfg.wf ∧ (ready idle).dpc.cfg.variant = .B ∧ (ready idle).dpc.sq = .idle ∧ (ready idle).fan.healthy ∧
      (ready idle).dpc.Lucky 8) ∧
    (∀ v : Bool, ∃ r : Rig, r.Awaits (.switching v (some 3)) (if v then 5#3 else 6#3) ∧ r.dpc.cfg.variant = .B ∧
      r.dpc.Lucky 8) := by
  refine ⟨⟨_, rfl, rfl, rfl⟩, ⟨_, rfl, rfl, (fun h => nomatch h)⟩, ⟨_, rfl, (fun h => nomatch h)⟩, ⟨_, rfl, rfl, rfl⟩,
    ⟨_, rfl, rfl, (fun h => nomatch h)⟩, ⟨_, rfl, (fun h => nomatch h)⟩,
    ⟨wf_rigged_B _ _ _ _, rfl, rfl, ready_healthy _, bench_lucky _ _ _⟩, fun v => ?_⟩
  refine ⟨fan (waitingAt .b1 (if v then 5#3 else 6#3) 0#8 (if v then 0xFF#8 else 0xF1#8) false []) false true
    (.switching v (some 3)) [], ⟨rfl, ?_, (fun h => nomatch h), rfl, rfl⟩, rfl, fun _ _ => ⟨rfl, rfl⟩⟩
  cases v
  · exact ⟨rigged_wf .B 64#8 64#8 [] [], at64.w0_le, rfl, (fun h => nomatch h), fun _ => rfl, fun _ => ⟨some 0xF1#8, rfl, rfl⟩,
      (fun h => nomatch h), (fun h => nomatch h), at64.dev_wf⟩
  · exact ⟨rigged_wf .B 64#8 64#8 [] [], at64.w0_le, rfl, (fun h => nomatch h), fun _ => rfl, fun _ => ⟨some 0xFF#8, rfl, rfl⟩,
      (fun h => nomatch h), (fun h => nomatch h), at64.dev_wf⟩

/-- A request whose speed write fails, one left waiting, and a step with no request. -/
theorem witness_FanPublishesItsState :
    (∃ r', (fan failing false true .ready [.control ⟨none, some 3⟩]).step = .next r' ∧ r'.fan.task = .ready) ∧
    (fan failing false true .ready [.control ⟨none, some 3⟩]).inControl = true ∧
    (∃ r', (fan (waiting [never]) false true (.speeding 4) []).step = .next r' ∧ r'.fan.task ≠ .ready) ∧
    (fan (waiting [never]) false true (.speeding 4) []).inControl = true ∧
    (∃ r', (fan idle false false .ready [.setup]).step = .next r') ∧ (fan idle false false .ready [.setup]).inControl = false :=
  ⟨⟨_, rfl, rfl⟩, rfl, ⟨_, rfl, (fun h => nomatch h)⟩, rfl, ⟨_, rfl⟩, rfl⟩

/-- Every one of the first eight answers succeeds but the `f`-th. -/
def oneBad (f : Nat) : State := scripted ((List.range 8).map fun k => ⟨true, decide (k ≠ f), 0#8⟩) idle

theorem oneBad_answers (f : Nat) (h : f < 8) :
    (oneBad f).Prompt 8 ∧ ((oneBad f).answerAt f).ok = false ∧ ∀ k, k < 8 → k ≠ f → ((oneBad f).answerAt k).ok = true := by
  have key : ∀ k, k < 8 → (oneBad f).answerAt k = ⟨true, decide (k ≠ f), 0#8⟩ := by
    intro k hk
    simp [State.answerAt, oneBad, scripted, hk]
  exact ⟨fun k hk => by rw [key k hk], by rw [key f h]; simp, fun k hk hne => by rw [key k hk]; simp [hne]⟩

/-- The first byte of the terminal write fails, and the second (P5). -/
theorem witness_FanSpeedMovesWhenTheTerminalWriteFails :
    ∀ f, f = 1 ∨ f = 2 → ∃ r : Rig, r.dpc.cfg.wf ∧ r.dpc.cfg.variant = .B ∧ r.dpc.sq = .idle ∧ r.fan.healthy ∧ r.dpc.Prompt 8 ∧
      (r.dpc.answerAt f).ok = false ∧ ∀ k, k < 8 → k ≠ f → (r.dpc.answerAt k).ok = true :=
  fun f hf => ⟨ready (oneBad f), wf_rigged_B _ _ _ _, rfl, rfl, ready_healthy _, oneBad_answers f (by omega)⟩

/-- The first byte of the speed write fails, and the second. -/
theorem witness_FanOnMovesWhenTheSpeedWriteFails :
    ∀ f, f = 5 ∨ f = 6 → ∃ r : Rig, r.dpc.cfg.wf ∧ r.dpc.cfg.variant = .B ∧ r.dpc.sq = .idle ∧ r.fan.healthy ∧ r.dpc.Prompt 8 ∧
      (r.dpc.answerAt f).ok = false ∧ ∀ k, k < 8 → k ≠ f → (r.dpc.answerAt k).ok = true :=
  fun f hf => ⟨ready (oneBad f), wf_rigged_B _ _ _ _, rfl, rfl, ready_healthy _, oneBad_answers f (by omega)⟩

end Sys2Proof.Tests
end

section
/-! PROOF. The state of the block (spec/10_state.md): the select bracket (R17) and the terminal-connection byte (R14). -/

namespace Sys2Proof.Machine

/-! ### The select bracket (R17) -/

/-- A byte step that succeeds leads to another step inside the bracket (R84, R90). -/
theorem nextSq_inBracket {f : Format} {q : Sq} (hb : q.inBracket = true) (hne : q ≠ .finish) :
    (nextSq f q).inBracket = true := by
  revert hb hne; cases f <;> cases q <;> decide

/-- The primitive of a step past CHECK: it opens the bracket, closes it, or is a byte primitive inside it (R83, R90). -/
theorem currentPrim_some {m : MicroProgram} {s : State} {p : Prim} (h : currentPrim m s = some p) :
    (s.sq = .select ∧ p = .select) ∨ (s.sq = .finish ∧ p = .deselect) ∨
    (s.sq.inBracket = true ∧ s.sq ≠ .finish ∧ bytePrim m s s.sq = some p) := by
  cases hq : s.sq <;> simp_all [currentPrim, Sq.inBracket]

/-- Past CHECK, only a byte step inside the bracket can be one that the frame does not have (R15, R90). -/
theorem inBracket_of_currentPrim_none {m : MicroProgram} {s : State} (hi : s.sq ≠ .idle) (hc : s.sq ≠ .check)
    (h : currentPrim m s = none) : s.sq.inBracket = true ∧ s.sq ≠ .finish := by
  cases hq : s.sq <;> simp_all [currentPrim, Sq.inBracket]

/-- CHECK opens no bracket (R83): it leaves `sel`, and ends at `Select` or with the block idle. -/
theorem runCheck_bracket (m : MicroProgram) (s : State) :
    (runCheck m s).sel = s.sel ∧ (runCheck m s).sq.inBracket = false := by
  cases hc : m.check s.cfg s.arg with
  | reject st => rw [runCheck_reject hc]; simp [Sq.inBracket]
  | proceed data =>
    cases data with
    | none => rw [runCheck_plain hc]; simp [Sq.inBracket]
    | some d => rw [runCheck_data hc]; simp [Sq.inBracket]

/-- Inside the bracket, what follows a byte primitive leaves `sel` and stays inside it: the next step, or `Deselect` (R84, R85). -/
theorem afterPrim_byte_bracket (m : MicroProgram) {q : Sq} (hb : q.inBracket = true) (hne : q ≠ .finish) (ok : Bool)
    (b : Byte) (t : State) :
    (afterPrim m q ok b t).sel = t.sel ∧ (afterPrim m q ok b t).sq.inBracket = true := by
  obtain ⟨-, hsel, -, -⟩ := latchByte_fields q b t
  cases ok with
  | true => simp [afterPrim, hne, hsel, nextSq_inBracket hb hne]
  | false => simp [afterPrim, hne, hsel, Sq.inBracket]

/-- The whole commit comes after `Deselect` and leaves `sel` (R89). -/
theorem commit_sel (op : BitVec 3) (u : State) : (commit (requestProgram op) u).sel = u.sel := by
  obtain ⟨-, -, -, -, -, -, -, -, hsel, -⟩ := commit_all op u
  exact hsel

/-- One sequencer step of an operation keeps `sel` set exactly inside the bracket (R17). No other part of the invariant is needed:
a step the frame does not have is passed over inside the bracket too. -/
theorem advance_keeps_sel_bracket {op : BitVec 3} {s t : State} (h : s.sel = s.sq.inBracket)
    (ha : advance (requestProgram op) s = .moved t ∨ advance (requestProgram op) s = .halted t) :
    t.sel = t.sq.inBracket := by
  rcases advance_cases (requestProgram op) s with
    ⟨-, e⟩ | ⟨hq, e⟩ | ⟨hi, hc, ⟨hn, e⟩ | ⟨p, -, -, e⟩ | ⟨p, u, ok, b, hp, hd, hr, e⟩⟩ <;>
    simp only [e, reduceCtorEq, Advance.moved.injEq, Advance.halted.injEq, or_false, false_or] at ha <;> subst ha
  · exact h
  · obtain ⟨hsel, hsq⟩ := runCheck_bracket (requestProgram op) s
    rw [hsel, hsq, h, hq]; rfl
  · obtain ⟨hb, hne⟩ := inBracket_of_currentPrim_none hi hc hn
    rw [goto_sel, goto_sq, h, hb, nextSq_inBracket hb hne]
  · exact h
  · obtain ⟨-, -, hsel⟩ := primitive_done hr
    rcases currentPrim_some hp with ⟨hq, rfl⟩ | ⟨hq, rfl⟩ | ⟨hb, hne, hbyte⟩
    · simp only [primitive, hd, if_true, Reply.done.injEq] at hr
      obtain ⟨-, rfl, -⟩ := hr
      simp [afterPrim, hq, latchByte, nextSq, hsel, selAfter, Sq.inBracket]
    · simp [afterPrim, hq, commit_sel, hsel, selAfter, Sq.inBracket]
    · obtain ⟨-, hkept, -, -⟩ := byte_primitive hbyte hr hd
      obtain ⟨hafter, hin⟩ := afterPrim_byte_bracket (requestProgram op) hb hne ok b u
      rw [hafter, hin, hkept, h, hb]

/-- Any run of the sequencer keeps `sel` set exactly inside the bracket (R17). -/
theorem runSteps_keeps_sel_bracket (op : BitVec 3) (n : Nat) {s : State} (h : s.sel = s.sq.inBracket) :
    (runSteps (requestProgram op) n s).sel = (runSteps (requestProgram op) n s).sq.inBracket :=
  runSteps_induct (P := fun u => u.sel = u.sq.inBracket) (fun _ _ => advance_keeps_sel_bracket) n s h

/-- Accepting a request opens no bracket (R83). -/
theorem Starts.keeps_sel_bracket {s u : State} (hu : Starts s u) (h : s.sel = s.sq.inBracket) : u.sel = u.sq.inBracket := by
  cases hu with
  | busy _ => exact h
  | idle hq rest op arg =>
    rw [hq] at h
    simpa [Sq.inBracket] using h

/-- Every step keeps `sel` set exactly inside the bracket (R17). -/
theorem step_keeps_sel_bracket {s t : State} (h : s.sel = s.sq.inBracket) (hstep : step s = .next t) :
    t.sel = t.sq.inBracket := by
  rcases step_cases hstep with ⟨-, -, rfl⟩ | ⟨-, -, -, rfl⟩ | ⟨-, -, rest, f, reply, -, rfl⟩ | ⟨-, u, hu, rfl⟩
  · rfl
  · exact h
  · exact h
  · exact runSteps_keeps_sel_bracket u.op maxSteps (hu.keeps_sel_bracket h)

/-- Settles O17: the sequencer moves `sel` at `Select` and `Deselect` only, which are the two ends of the bracket. -/
theorem selIsSetExactlyInsideTheBracket : Obligations.SelIsSetExactlyInsideTheBracket := by
  intro s t h hstep
  have hkept := step_keeps_sel_bracket h hstep
  exact ⟨hkept, fun hidle => by rw [hkept, hidle]; rfl⟩

/-! ### The terminal-connection byte (R14) -/

/-- The layout of the byte: A, W and B at bits 3, 2 and 1, every other bit 1 (R14). -/
theorem tconByte_eq_append (a w b : Bool) :
    tconByte ⟨a, w, b⟩ = 0b1111#4 ++ BitVec.ofBool a ++ BitVec.ofBool w ++ BitVec.ofBool b ++ 1#1 := by
  revert a w b; decide

theorem tconByte_mem (t : TermState) :
    tconByte t ∈ [0xFF#8, 0xFD#8, 0xFB#8, 0xF9#8, 0xF7#8, 0xF5#8, 0xF3#8, 0xF1#8] := by
  obtain ⟨a, w, b⟩ := t
  revert a w b; decide

/-- CHECK of a terminal operation in variant B gives the byte of its terminals (R56, R130). -/
theorem terminalCheck_strict {c : Config} (h : c.variant = .B) (t : TermState) :
    terminalCheck c t = .proceed (some (tconByte t)) := by
  simp [terminalCheck, h]

/-- The command byte of WTC: a Write at TerminalControl (R54). -/
theorem wtcProgram_cmd (c : Config) : wtcProgram.cmd c = cmdByte c.addrTcon c.cmdWrite :=
  busByte_eq ..

/-- CHECK of WTC in variant B: the byte of the three booleans, whatever the ignored operand bits (R61, R130). -/
theorem wtcProgram_check {c : Config} (h : c.variant = .B) (a w b : Bool) (xh : BitVec 4) (xl : Bool) :
    wtcProgram.check c (wtcArg a w b xh xl) = .proceed (some (tconByte ⟨a, w, b⟩)) := by
  rw [← argTerminals_wtcArg a w b xh xl]
  exact terminalCheck_strict h _

/-- The commit of an operation issues no primitive (R89). -/
theorem requestCommit_trace (op : BitVec 3) (u : State) : ((requestProgram op).commit u).trace = u.trace := by
  obtain ⟨-, -, -, -, -, -, -, -, -, -, -, -, -, -, -, -, -, htrace, -⟩ := commit_fields op u
  exact htrace

/-- A Write request that goes through puts its command byte and its data byte on the bus, in one bracket (R42, R84). -/
theorem request_w2_traffic {op : BitVec 3} {arg d : Byte} {s : State} (h : s.sq = .idle)
    (hf : (requestProgram op).format = .w2) (hc : (requestProgram op).check s.cfg arg = .proceed (some d)) (hl : s.Lucky 4) :
    ∃ t, runRequest (requestProgram op) op arg s = .next t ∧
      BusTraffic s t [.selected, .wrote ((requestProgram op).cmd s.cfg) true, .wrote d true, .deselected] := by
  refine ⟨_, request_w2 h hf hc hl, ?_⟩
  rw [BusTraffic, release_trace, requestCommit_trace]
  rfl

/-- Settles O5: the byte by its three booleans, and WTC as the Write request whose data byte it is. -/
theorem terminalByteLayout : Obligations.TerminalByteLayout := by
  intro a w b
  refine ⟨rfl, tconByte_eq_append a w b, tconByte_mem _, fun xh xl s _ hidle hB hl => ?_⟩
  rw [exec_request (i := .wtc a w b xh xl) rfl, ← wtcProgram_cmd]
  exact request_w2_traffic (op := 4#3) hidle rfl (wtcProgram_check hB a w b xh xl) hl

end Sys2Proof.Machine
end

section
/-! PROOF. The command encoder (spec/40_command_encoder.md): its byte is its three fields side by side (R70). -/

namespace Sys2Proof

/-! ### The masks of the encoder (R70) -/

/-- The command mask keeps the `cmd` field, at bits 3:2, and nothing else. -/
theorem and_commandMask (command : Byte) : command &&& 0x0C#8 = preShift (cmdField command) := by
  revert command; decide

/-- The extra-data mask keeps the `dx` field, at bits 1:0, and nothing else. -/
theorem and_extraMask (extra : Byte) : extra &&& 0x03#8 = (dxField extra).setWidth 8 := by
  revert extra; decide

/-- The encoder reads its inputs through its masks only (R72 (b), (c)). -/
theorem commandByte_masked (address : RegAddr) (command extra : Byte) :
    commandByte address (command &&& 0x0C#8) (extra &&& 0x03#8) = commandByte address command extra := by
  simp only [commandByte, BitVec.and_assoc, BitVec.and_self]

/-- On any inputs the encoder gives the command byte of the address and the two fields that its masks keep (R50, R70). -/
theorem commandByte_eq_busByte (address : RegAddr) (command extra : Byte) :
    commandByte address command extra = busByte address (cmdField command) (dxField extra) := by
  rw [← commandByte_masked, and_commandMask, and_extraMask, busByte]

/-! ### The encoder as a concatenation (R70) -/

/-- Settles O1: the formula is the encoder's definition; the concatenation is the layout of the command byte of its fields. -/
theorem commandEncoderConcatenatesFields : Obligations.CommandEncoderConcatenatesFields := by
  intro address command extra
  have hconcat : commandByte address command extra = address ++ cmdField command ++ dxField extra := by
    rw [commandByte_eq_busByte, busByte_eq]
  exact ⟨rfl, hconcat⟩

end Sys2Proof
end

section
/-! PROOF. The words at the ports (spec/30_encoding.md, 40_command_encoder.md): decoder and encoder agree. -/

namespace Sys2Proof

/-! ### The command encoder (R70 to R72) -/

/-- Settles O2: a pre-shifted command has no bit outside the command mask (R71). -/
theorem commandEncoderLaw : Obligations.CommandEncoderLaw := by
  intro address command hmem
  have hmask : command &&& 0x0C#8 = command := by
    simp only [List.mem_cons, List.not_mem_nil, or_false] at hmem
    rcases hmem with rfl | rfl | rfl | rfl <;> rfl
  simp [commandByte, hmask]

/-- The encoder loses nothing of the three fields it keeps (R72 (d)). -/
theorem commandByte_inj {a a' : RegAddr} {k k' x x' : Byte} (h : commandByte a k x = commandByte a' k' x') :
    a = a' ∧ cmdField k = cmdField k' ∧ dxField x = dxField x' := by
  rwa [commandByte_eq_busByte, commandByte_eq_busByte, busByte_inj] at h

/-- Settles O3: each clause reads the fields that the masks keep. -/
theorem commandEncoderMasks : Obligations.CommandEncoderMasks := by
  refine ⟨fun a code x => ?_, by decide, fun a k => ?_, fun a a' k k' x x' h => commandByte_inj h⟩
  · have hlost : cmdField (code.setWidth 8) = cmdField 0#8 := by revert code; decide
    rw [commandByte_eq_busByte, commandByte_eq_busByte, hlost]
  · have hlost : dxField 0xFC#8 = dxField 0#8 := by decide
    rw [commandByte_eq_busByte, commandByte_eq_busByte, hlost]

/-- Settles O4. -/
theorem emittedBytesOfTheDefaultBuild : Obligations.EmittedBytesOfTheDefaultBuild := by
  unfold Obligations.EmittedBytesOfTheDefaultBuild
  decide

/-! ### Host requests (R61) -/

/-- The high byte of a request word holds its opcode and nothing above it (log entry 10). -/
theorem request_highByte (op : BitVec 3) :
    (op.setWidth 8).extractLsb' 3 5 = 0#5 ∧ (op.setWidth 8).extractLsb' 0 3 = op := by
  revert op; decide

/-- The request word of the host port decodes to its operation (R61). -/
theorem decode_requestWord (c : Config) (op : BitVec 3) (arg : Byte) :
    decode c (requestWord op arg) = .ok (decodeRequest op arg) := by
  obtain ⟨hzero, hop⟩ := request_highByte op
  simp only [decode, requestWord, hzero, hop, if_true]

/-- The operand byte of WTC is its five fields (R61). -/
theorem decodeRequest_wtcArg (a w b : Bool) (xh : BitVec 4) (xl : Bool) :
    decodeRequest 4#3 (wtcArg a w b xh xl) = .wtc a w b xh xl := by
  revert a w b xh xl; decide

/-- Any operand byte of WTC is put together again from its five fields (R61). -/
theorem wtcArg_fields (arg : Byte) :
    wtcArg (arg.getLsbD 3) (arg.getLsbD 2) (arg.getLsbD 1) (arg.extractLsb' 4 4) (arg.getLsbD 0) = arg := by
  revert arg; decide

/-- Settles O7, opcode by opcode. -/
theorem encodeOfDecodedRequestIsTheRequest : Obligations.EncodeOfDecodedRequestIsTheRequest := by
  intro c op arg
  rcases Machine.opcode_cases op with rfl | rfl | rfl | rfl | rfl | rfl | rfl | rfl
  case inr.inr.inr.inr.inl => exact ⟨congrArg (requestWord 4#3) (wtcArg_fields arg), rfl⟩
  all_goals exact ⟨rfl, rfl⟩

/-! ### Frames at the bus port (R50 to R54) -/

section
variable {c : Config} {b : Byte}

theorem decodeFrame_write (h : cmdField b = c.cmdWrite) (data : Byte) (rest : List Byte) :
    decodeFrame c b (data :: rest) = .ok (decodeWrite c b data) := by
  simp [decodeFrame, h]

theorem decodeFrame_increment (hc : c.wf) (h : cmdField b = c.cmdIncrement) (rest : List Byte) :
    decodeFrame c b rest = .ok (if b = incByte c then .busInc else .busIncrement (addrField b) (dxField b)) := by
  obtain ⟨hwi, -⟩ := Config.wf_codes hc
  simp only [decodeFrame, h, hwi.symm, if_true, if_false]

theorem decodeFrame_decrement (hc : c.wf) (h : cmdField b = c.cmdDecrement) (rest : List Byte) :
    decodeFrame c b rest = .ok (if b = decByte c then .busDec else .busDecrement (addrField b) (dxField b)) := by
  obtain ⟨-, hwd, -, hid, -⟩ := Config.wf_codes hc
  simp only [decodeFrame, h, hwd.symm, hid.symm, if_true, if_false]

theorem decodeFrame_read (hc : c.wf) (h : cmdField b = c.cmdRead) (rest : List Byte) :
    decodeFrame c b rest = .ok (if b = rdwByte c then .busRdw else .busRead (addrField b) (dxField b)) := by
  obtain ⟨-, -, hwr, -, hir, hdr⟩ := Config.wf_codes hc
  simp only [decodeFrame, h, hwr.symm, hir.symm, hdr.symm, if_true, if_false]

/-- The command bytes of WRW and WTC differ: their registers do (R31, R54). -/
theorem wtcByte_ne_wrwByte (hc : c.wf) : wtcByte c ≠ wrwByte c := fun h =>
  Config.wf_addresses hc (busByte_inj.mp h).1.symm

/-- A byte that is no command byte of R54 differs from it in the address or in `dx` (log entry 13). -/
theorem busByte_ne_plain {addr a : RegAddr} {k dx : BitVec 2} (h : ¬ (dx = 0#2 ∧ addr = a)) :
    busByte addr k dx ≠ busByte a k 0#2 := fun e => by
  obtain ⟨ha, -, hx⟩ := busByte_inj.mp e
  exact h ⟨hx, ha⟩

/-- A Write byte that is none of R54's decodes to its generic row (log entry 13). -/
theorem decodeWrite_generic {addr : RegAddr} {dx : BitVec 2} (data : Byte)
    (h : ¬ (dx = 0#2 ∧ (addr = c.addrWiper0 ∨ addr = c.addrTcon))) :
    decodeWrite c (busByte addr c.cmdWrite dx) data = .busWrite addr dx data := by
  have h1 : busByte addr c.cmdWrite dx ≠ wrwByte c := busByte_ne_plain fun e => h ⟨e.1, .inl e.2⟩
  have h2 : busByte addr c.cmdWrite dx ≠ wtcByte c := busByte_ne_plain fun e => h ⟨e.1, .inr e.2⟩
  simp only [decodeWrite, h1, h2, if_false, addrField_busByte, dxField_busByte]

theorem decodeWrite_wrwByte (data : Byte) : decodeWrite c (wrwByte c) data = .busWrw data := if_pos rfl

theorem decodeWrite_wtcByte (hc : c.wf) (data : Byte) : decodeWrite c (wtcByte c) data = .busWtc data := by
  rw [decodeWrite, if_neg (wtcByte_ne_wrwByte hc), if_pos rfl]

end

/-- Settles O6, row by row: a request by its opcode, a frame by its `cmd` field and then by whether its byte is one of R54's. -/
theorem decodeOfEncodeIsTheInstruction : Obligations.DecodeOfEncodeIsTheInstruction := by
  intro c i hc hi
  cases i with
  | wrw v => exact decode_requestWord c 0#3 v
  | rdw x => exact decode_requestWord c 1#3 x
  | inc x => exact decode_requestWord c 2#3 x
  | dec x => exact decode_requestWord c 3#3 x
  | wtc a w b xh xl => exact (decode_requestWord c 4#3 _).trans (congrArg _ (decodeRequest_wtcArg a w b xh xl))
  | ent x => exact decode_requestWord c 5#3 x
  | dist x => exact decode_requestWord c 6#3 x
  | reserved x => exact decode_requestWord c 7#3 x
  | busWrite addr dx data =>
    exact (decodeFrame_write (by simp) data []).trans (congrArg _ (decodeWrite_generic data hi))
  | busIncrement addr dx =>
    have hne : busByte addr c.cmdIncrement dx ≠ incByte c := busByte_ne_plain hi
    refine (decodeFrame_increment hc (by simp) []).trans ?_
    rw [if_neg hne, addrField_busByte, dxField_busByte]
  | busDecrement addr dx =>
    have hne : busByte addr c.cmdDecrement dx ≠ decByte c := busByte_ne_plain hi
    refine (decodeFrame_decrement hc (by simp) []).trans ?_
    rw [if_neg hne, addrField_busByte, dxField_busByte]
  | busRead addr dx =>
    have hne : busByte addr c.cmdRead dx ≠ rdwByte c := busByte_ne_plain hi
    refine (decodeFrame_read hc (by simp) []).trans ?_
    rw [if_neg hne, addrField_busByte, dxField_busByte]
  | busWrw data => exact (decodeFrame_write (by simp [wrwByte]) data []).trans (congrArg _ (decodeWrite_wrwByte data))
  | busInc => exact (decodeFrame_increment hc (by simp [incByte]) []).trans (congrArg _ (if_pos rfl))
  | busDec => exact (decodeFrame_decrement hc (by simp [decByte]) []).trans (congrArg _ (if_pos rfl))
  | busRdw => exact (decodeFrame_read hc (by simp [rdwByte]) []).trans (congrArg _ (if_pos rfl))
  | busWtc data => exact (decodeFrame_write (by simp [wtcByte]) data []).trans (congrArg _ (decodeWrite_wtcByte hc data))

/-- A command byte whose kind is known is the command byte of its other two fields (R50). -/
theorem busByte_of_cmdField {b : Byte} {k : BitVec 2} (h : cmdField b = k) : busByte (addrField b) k (dxField b) = b := by
  rw [← h, busByte_fields]

/-- A byte other than the one of R54 is a well-formed generic row: its address or its `dx` differs (log entry 13). -/
theorem fields_ne_of_ne {b : Byte} {k : BitVec 2} {a : RegAddr} (h : cmdField b = k) (hne : b ≠ busByte a k 0#2) :
    ¬ (dxField b = 0#2 ∧ addrField b = a) := by
  rintro ⟨hx, ha⟩
  rw [← busByte_of_cmdField h, hx, ha] at hne
  exact hne rfl

/-- A Write byte decodes to a well-formed frame that encodes back to it and to its data byte. -/
theorem decodeWrite_wf {c : Config} {b : Byte} (h : cmdField b = c.cmdWrite) (data : Byte) :
    (decodeWrite c b data).wf c ∧ (decodeWrite c b data).isRequest = false ∧
      (encode c (decodeWrite c b data)).bytes = [b, data] := by
  unfold decodeWrite
  split
  · subst b; exact ⟨trivial, rfl, rfl⟩
  · rename_i hwrw
    split
    · subst b; exact ⟨trivial, rfl, rfl⟩
    · rename_i hwtc
      refine ⟨?_, rfl, by simp [encode, busByte_of_cmdField h]⟩
      rintro ⟨hx, ha | ha⟩
      · exact fields_ne_of_ne h hwrw ⟨hx, ha⟩
      · exact fields_ne_of_ne h hwtc ⟨hx, ha⟩

/-- A byte of another kind decodes to the row of R54 or to the generic one, either of which encodes back to it. -/
theorem oneByteRow_roundTrip {c : Config} {b data : Byte} {k : BitVec 2} {row generic : Instr} (h : cmdField b = k)
    (hk : k ≠ c.cmdWrite)
    (hdecode : decode c ⟨.bus, [b, data]⟩ = .ok (if b = busByte c.addrWiper0 k 0#2 then row else generic))
    (hrow : row.wf c ∧ row.isRequest = false ∧ (encode c row).bytes = [busByte c.addrWiper0 k 0#2])
    (hgeneric : (¬ (dxField b = 0#2 ∧ addrField b = c.addrWiper0) → generic.wf c) ∧ generic.isRequest = false ∧
      (encode c generic).bytes = [busByte (addrField b) k (dxField b)]) :
    ∃ i : Instr, decode c ⟨.bus, [b, data]⟩ = .ok i ∧ i.wf c ∧ i.isRequest = false ∧
      ((encode c i).bytes = [b, data] ∨ cmdField b ≠ c.cmdWrite ∧ (encode c i).bytes = [b]) := by
  refine ⟨_, hdecode, ?_⟩
  split
  · rename_i heq
    obtain ⟨hwf, hreq, hbytes⟩ := hrow
    exact ⟨hwf, hreq, .inr ⟨h ▸ hk, by rw [hbytes, ← heq]⟩⟩
  · rename_i hne
    obtain ⟨hwf, hreq, hbytes⟩ := hgeneric
    exact ⟨hwf (fields_ne_of_ne h hne), hreq, .inr ⟨h ▸ hk, by rw [hbytes, busByte_of_cmdField h]⟩⟩

/-- Settles O8: by the kind of the command byte, and then by whether it is the one of R54. -/
theorem everyCommandByteDecodes : Obligations.EveryCommandByteDecodes := by
  intro c b data hc
  obtain ⟨hwi, hwd, hwr, -⟩ := Config.wf_codes hc
  rcases Config.wf_cover hc (cmdField b) with h | h | h | h
  · obtain ⟨hwf, hreq, hbytes⟩ := decodeWrite_wf h data
    exact ⟨_, decodeFrame_write h data [], hwf, hreq, .inl hbytes⟩
  · exact oneByteRow_roundTrip h hwi.symm (decodeFrame_increment hc h [data]) ⟨trivial, rfl, rfl⟩ ⟨id, rfl, rfl⟩
  · exact oneByteRow_roundTrip h hwd.symm (decodeFrame_decrement hc h [data]) ⟨trivial, rfl, rfl⟩ ⟨id, rfl, rfl⟩
  · exact oneByteRow_roundTrip h hwr.symm (decodeFrame_read hc h [data]) ⟨trivial, rfl, rfl⟩ ⟨id, rfl, rfl⟩

/-- Settles O9. -/
theorem tableWordsDecode : Obligations.TableWordsDecode := by
  refine ⟨?_, ?_, ?_, ?_, ?_⟩ <;> rfl

end Sys2Proof
end

section
/-! PROOF. Reset, the kinds of a step, and what no run of the sequencer writes (spec/70_reset_and_hazards.md, 41_sequencer.md). -/

namespace Sys2Proof.Machine

/-! ### The kinds of a step, one equation each (R83, R87, R180) -/

section
variable {s : State}

theorem step_reset_idle (hr : s.rst = true) (hq : s.sq = .idle) : step s = .next s.afterReset := by
  simp [step, hr, State.resetInput, hq]

theorem step_reset_busy (hr : s.rst = true) (hq : s.sq ≠ .idle) : step s = .refused .resetWhileBusy := by
  simp [step, hr, State.resetInput, hq]

theorem step_busy (hr : s.rst = false) (hq : s.sq ≠ .idle) : step s = .next s.resume := by
  simp [step, hr, hq]

theorem step_empty (hr : s.rst = false) (hq : s.sq = .idle) (hp : s.pending = []) : step s = .next s.wait := by
  simp [step, hr, hq, hp]

theorem step_undecodable {w : PortWord} {rest : List PortWord} {e : DecodeError} (hr : s.rst = false) (hq : s.sq = .idle)
    (hp : s.pending = w :: rest) (hd : decode s.cfg w = .error e) : step s = .refused (.undecodable e) := by
  simp [step, hr, hq, hp, State.fetch, hd]

theorem step_decoded {w : PortWord} {rest : List PortWord} {i : Instr} (hr : s.rst = false) (hq : s.sq = .idle)
    (hp : s.pending = w :: rest) (hd : decode s.cfg w = .ok i) : step s = exec i (s.take rest) := by
  simp [step, hr, hq, hp, State.fetch, hd]

end

/-! ### Reset -/

/-- Settles O10. -/
theorem resetValues : Obligations.ResetValues := fun _ => ⟨rfl, rfl, rfl, rfl, rfl, rfl, rfl⟩

/-- Settles O11: by whether an operation runs (R181). -/
theorem resetInputActsOnAnIdleBlock : Obligations.ResetInputActsOnAnIdleBlock := fun _ hr =>
  ⟨fun hq => ⟨_, step_reset_idle hr hq, rfl, rfl, rfl, rfl, rfl, rfl, rfl, rfl, rfl⟩, step_reset_busy hr⟩

/-- Settles O12. -/
theorem stepRunsTheDecodedInstruction : Obligations.StepRunsTheDecodedInstruction := fun _ _ _ _ => step_decoded

/-- An idle block keeps the invariant when its build, its shadow registers and the peer do: the rest speaks of a running operation. -/
theorem inv_of_idle {s : State} (hc : s.cfg.wf) (hw : s.w0 ≤ wiperMax) (htc : s.cfg.variant = .A → s.tc = none)
    (hq : s.sq = .idle) (hsel : s.sel = false) (hp : Memory.wf s.peer.dev) : s.Inv where
  cfg_wf := hc
  w0_le := hw
  sel_bracket := by rw [hsel, hq]; rfl
  tc_variant := htc
  in_frame := by simp [hq, Sq.pastCheck]
  checked := by simp [hq, Sq.pastCheck]
  fail_finish := fun _ => .inl hq
  rsp_idle := fun _ => hq
  dev_wf := hp

/-- Settles O14. -/
theorem invariantHoldsAfterReset : Obligations.InvariantHoldsAfterReset := fun _ hc =>
  inv_of_idle hc hc.1 (fun _ => rfl) rfl rfl Memory.wf_nil

/-- Settles O15: the default build is well formed. -/
theorem invariantHoldsAtTheResetState : Obligations.InvariantHoldsAtTheResetState :=
  invariantHoldsAfterReset Config.default (by decide)

/-! ### What no run of the sequencer writes -/

/-- `t` holds what `s` holds in every field that neither a frame nor a commit writes. -/
structure Kept (s t : State) : Prop where
  cfg     : t.cfg = s.cfg
  op      : t.op = s.op
  arg     : t.arg = s.arg
  rst     : t.rst = s.rst
  pending : t.pending = s.pending
  link    : t.link = s.link
  reply   : t.reply = s.reply

theorem Kept.refl (s : State) : Kept s s := ⟨rfl, rfl, rfl, rfl, rfl, rfl, rfl⟩

theorem Kept.trans {s t u : State} (h : Kept s t) (k : Kept t u) : Kept s u :=
  ⟨k.cfg.trans h.cfg, k.op.trans h.op, k.arg.trans h.arg, k.rst.trans h.rst, k.pending.trans h.pending,
    k.link.trans h.link, k.reply.trans h.reply⟩

/-- What a frame does not move is kept. -/
theorem Unmoved.kept {s t : State} (h : Unmoved s t) : Kept s t :=
  ⟨h.cfg, h.op, h.arg, h.rst, h.pending, h.link, h.reply⟩

/-- A commit writes the result, `W[0]` and `TC` only (R89). -/
theorem kept_commit (op : BitVec 3) (s : State) : Kept s (commit (requestProgram op) s) := by
  obtain ⟨hcfg, -, hop, harg, -, -, -, -, -, -, hrst, hpending, -, hlink, -, hreply, -⟩ := commit_all op s
  exact ⟨hcfg, hop, harg, hrst, hpending, hlink, hreply⟩

/-- CHECK writes the result or the data byte only (R83). -/
theorem kept_runCheck (m : MicroProgram) (s : State) : Kept s (runCheck m s) := by
  cases hc : m.check s.cfg s.arg with
  | reject st => rw [runCheck_reject hc]; exact ⟨rfl, rfl, rfl, rfl, rfl, rfl, rfl⟩
  | proceed data =>
    cases data with
    | none => rw [runCheck_plain hc]; exact ⟨rfl, rfl, rfl, rfl, rfl, rfl, rfl⟩
    | some d => rw [runCheck_data hc]; exact ⟨rfl, rfl, rfl, rfl, rfl, rfl, rfl⟩

/-- What follows a primitive writes the step, a response latch, the mark of a failure, or is the commit (R84, R85, R89). -/
theorem kept_afterPrim (op : BitVec 3) (q : Sq) (ok : Bool) (b : Byte) (s : State) :
    Kept s (afterPrim (requestProgram op) q ok b s) := by
  obtain ⟨hlatch, -⟩ := latchByte_fields q b s
  unfold afterPrim
  split_ifs
  · exact kept_commit op s
  · exact hlatch.kept.trans (unmoved_goto _ _).kept
  · exact hlatch.kept.trans (unmoved_abort _).kept

/-- One sequencer step keeps all that. -/
theorem kept_advance {op : BitVec 3} {s t : State}
    (ha : advance (requestProgram op) s = .moved t ∨ advance (requestProgram op) s = .halted t) : Kept s t := by
  rcases advance_cases (requestProgram op) s with
    ⟨-, e⟩ | ⟨-, e⟩ | ⟨-, -, ⟨-, e⟩ | ⟨p, -, -, e⟩ | ⟨p, u, ok, b, -, -, hr, e⟩⟩ <;>
    simp only [e, reduceCtorEq, Advance.moved.injEq, Advance.halted.injEq, or_false, false_or] at ha <;> subst ha
  · exact Kept.refl s
  · exact kept_runCheck _ s
  · exact (unmoved_goto _ _).kept
  · exact (unmoved_consume s).kept
  · exact (primitive_done hr).1.kept.trans (kept_afterPrim op _ _ _ _)

/-- So does any run. -/
theorem kept_runSteps (op : BitVec 3) (n : Nat) (s : State) : Kept s (runSteps (requestProgram op) n s) :=
  runSteps_induct (P := Kept s) (fun _ _ h ha => h.trans (kept_advance ha)) n s (Kept.refl s)

theorem kept_resume (s : State) : Kept s s.resume := kept_runSteps s.op maxSteps s

/-- Settles O13: a busy block goes on, and takes no word while it does. -/
theorem stepsWithoutAnInstruction : Obligations.StepsWithoutAnInstruction := fun s hr =>
  ⟨step_empty hr, fun _ _ _ => step_undecodable hr, fun hq i => exec_busy i hq,
    fun hq => ⟨_, step_busy hr hq, (kept_resume s).pending⟩⟩

/-- Taking a request moves no parameter of the build. -/
theorem Starts.cfg {s u : State} (h : Starts s u) : u.cfg = s.cfg := by cases h <;> rfl

/-- Settles O18: by the kinds of a step. -/
theorem everyStepKeepsTheConfiguration : Obligations.EveryStepKeepsTheConfiguration := by
  intro s t h
  rcases step_cases h with ⟨-, -, rfl⟩ | ⟨-, -, -, rfl⟩ | ⟨-, -, rest, f, reply, -, rfl⟩ | ⟨-, u, hu, rfl⟩
  · rfl
  · rfl
  · rfl
  · exact (kept_runSteps u.op maxSteps u).cfg.trans hu.cfg

end Sys2Proof.Machine
end

section
/-! PROOF. What a step of a block that keeps the invariant comes to, said once with its bus traffic (spec/41_sequencer.md R82 to
R89); and that every step keeps the invariant. -/

namespace Sys2Proof.Machine

/-! ### Where the frame of a step begins -/

/-- The step from `s` runs the sequencer from `w`: where a busy block stands, or at the CHECK or the `Select` of the request it has
taken before or just now (R82, R83). No bus traffic has come between, and no register but the latches has moved. -/
structure Launched (s w : State) : Prop where
  cfg     : w.cfg = s.cfg
  w0      : w.w0 = s.w0
  tc      : w.tc = s.tc
  lo      : w.lo = s.lo
  sel     : w.sel = s.sel
  status  : w.status = s.status
  rdata   : w.rdata = s.rdata
  peer    : w.peer = s.peer
  trace   : w.trace = s.trace
  latched : s.sq ≠ .idle → w.op = s.op ∧ w.arg = s.arg
  stands  : w = s ∧ s.sq ≠ .idle ∨ (s.sq = .idle ∨ s.sq = .check) ∧ (w.sq = .check ∨ w.sq = .select)
  inv     : w.Inv

/-- A request is taken: the block is at CHECK, and keeps the invariant (R83). -/
theorem Starts.launched {s u : State} (hu : Starts s u) (h : s.Inv) : Launched s u := by
  cases hu with
  | busy hb => exact ⟨rfl, rfl, rfl, rfl, rfl, rfl, rfl, rfl, rfl, fun _ => ⟨rfl, rfl⟩, .inl ⟨rfl, hb⟩, h⟩
  | idle hq rest op arg =>
    have hsel : s.sel = false := by rw [h.sel_bracket, hq]; rfl
    exact ⟨rfl, rfl, rfl, rfl, rfl, rfl, rfl, rfl, rfl, fun hb => absurd hq hb, .inr ⟨.inl hq, .inl rfl⟩,
      ⟨h.cfg_wf, h.w0_le, hsel, h.tc_variant, (fun hp => nomatch hp), (fun hp => nomatch hp), (fun hf => nomatch hf),
        (fun hv => nomatch hv), h.dev_wf⟩⟩

/-- A block at CHECK has no failed byte (R85). -/
theorem State.Inv.fail_check {s : State} (h : s.Inv) (hq : s.sq = .check) : s.fail = false := by
  cases hf : s.fail
  · rfl
  · rcases h.fail_finish hf with e | e <;> simp [e] at hq

/-- A busy block gives no response (R92). -/
theorem State.Inv.rsp_busy {s : State} (h : s.Inv) (hb : s.sq ≠ .idle) : s.rspValid = false := by
  cases hr : s.rspValid
  · rfl
  · exact absurd (h.rsp_idle hr) hb

/-- A request past CHECK begins its frame, and keeps the invariant (R83). -/
theorem Launched.begun {s u : State} {data : Option Byte} (h : Launched s u) (hq : u.sq = .check)
    (hc : u.program.check u.cfg u.arg = .proceed data) : Launched s (begun data u) := by
  have hu := h.inv
  have hsel : u.sel = false := by rw [hu.sel_bracket, hq]; rfl
  refine ⟨h.cfg, h.w0, h.tc, h.lo, h.sel, h.status, h.rdata, h.peer, h.trace, h.latched, .inr ⟨?_, .inr rfl⟩, ?_⟩
  · rcases h.stands with ⟨rfl, -⟩ | ⟨hs, -⟩
    · exact .inr hq
    · exact hs
  · exact {
      cfg_wf := hu.cfg_wf
      w0_le := hu.w0_le
      sel_bracket := hsel
      tc_variant := hu.tc_variant
      in_frame := fun _ => rfl
      checked := fun _ => ⟨data, hc, by cases data <;> rfl⟩
      fail_finish := fun hf => absurd (show u.fail = true from hf) (by simp [hu.fail_check hq])
      rsp_idle := fun hv => absurd (show u.rspValid = true from hv) (by simp [hu.rsp_busy (by simp [hq])])
      dev_wf := hu.dev_wf }

section
variable {s w : State} (h : Launched s w)
include h

theorem Launched.opening : w.opening = s.opening := by simp [State.opening, h.sel]

theorem Launched.finish_iff : w.sq = .finish ↔ s.sq = .finish := by
  rcases h.stands with ⟨rfl, -⟩ | ⟨hs | hs, hw | hw⟩ <;> simp [*]

/-- A request just taken has no failed byte. -/
theorem Launched.alreadyFailed_iff : w.AlreadyFailed ↔ s.AlreadyFailed := by
  rcases h.stands with ⟨rfl, -⟩ | ⟨hs | hs, hw | hw⟩ <;> simp [State.AlreadyFailed, *]

/-- Taking a request and its CHECK issue no primitive (R83, R194). -/
theorem Launched.primitivesLeft_eq (op : BitVec 3) : primitivesLeft op w.sq = primitivesLeft op s.sq := by
  rcases h.stands with ⟨rfl, -⟩ | ⟨hs | hs, hw | hw⟩ <;> simp [primitivesLeft, *]

end

/-! ### What a step comes to -/

/-- A step that runs no operation: a reset, a wait, or a frame from the bus port (R180; log entry 11). -/
structure Quiet (s t : State) : Prop where
  was_idle : s.sq = .idle
  sq       : t.sq = .idle
  sel      : t.sel = false
  rspValid : t.rspValid = false
  trace    : t.trace = s.trace
  shadow   : s.rst = false → t.w0 = s.w0 ∧ t.tc = s.tc
  inv      : t.Inv

/-- What a commit leaves of an operation whose frame began at `w` and came to its `Deselect` at `v` (R89): the block idle, the
bracket closed, the response given, TransportFailure exactly when a byte failed. -/
structure Ended (w v t : State) : Prop where
  sq       : t.sq = .idle
  sel      : t.sel = false
  rspValid : t.rspValid = true
  cfg      : t.cfg = w.cfg
  op       : t.op = w.op
  arg      : t.arg = w.arg
  d        : t.d = w.d
  lo       : t.lo = v.lo
  failed   : t.status = .transportFailure ↔ v.fail = true

/-- What a step of a block that keeps the invariant comes to: no operation runs; or one is rejected at CHECK, waits at its
`Select`, waits inside its bracket, or is committed. -/
inductive StepOutcome (s t : State) : Prop where
  | quiet (quiet : Quiet s t)
  | rejected (u : State) (st : Status) (launched : Launched s u) (check : u.sq = .check)
      (reject : u.program.check u.cfg u.arg = .reject st) (result : t = (u.respond st).release)
  | selecting (w : State) (launched : Launched s w) (at_select : w.sq = .select) (unmoved : Unmoved w t) (sq : t.sq = .select)
      (sel : t.sel = false) (fail : t.fail = false) (trace : t.trace = s.trace)
  | inside (w : State) (bytes : List Event) (launched : Launched s w) (past : w.sq.pastCheck = true) (inside : Inside w.program w t bytes)
      (traffic : BusTraffic s t (s.opening ++ bytes))
  | committed (w v : State) (bytes : List Event) (launched : Launched s w) (past : w.sq.pastCheck = true)
      (inside : Inside w.program w v bytes) (finish : v.sq = .finish) (result : t = commit w.program v.closed)
      (ended : Ended w v t) (traffic : BusTraffic s t (s.opening ++ bytes ++ [.deselected]))

/-- A commit after `Deselect` ends the operation. -/
theorem ended_commit {w v : State} {bytes : List Event} (h : Inside w.program w v bytes) :
    Ended w v (commit w.program v.closed) := by
  obtain ⟨hcfg, hsq, hop, harg, hd, -, hlo, -, hsel, hrsp, -, -, -, -, -, -, -, -, hfail⟩ := commit_all w.op v.closed
  have hu := h.unmoved.trans (unmoved_closed v)
  exact ⟨hsq, hsel.trans (closed_sel v), hrsp, hcfg.trans hu.cfg, hop.trans hu.op, harg.trans hu.arg, hd.trans hu.d,
    hlo.trans (closed_lo v), by rw [← closed_fail v]; exact hfail⟩

/-- A run of the frame from `w` comes to one of the last three cases. -/
theorem outcome_of_standing {s w t : State} (hw : Launched s w) (hp : w.sq.pastCheck = true)
    (h : Standing w.program w t) : StepOutcome s t := by
  rcases h with ⟨hu, hq, hqt, hsel, hf, htr⟩ | ⟨bytes, h⟩ | ⟨v, bytes, h, hv, rfl⟩
  · have hclosed : w.sel = false := by rw [hw.inv.sel_bracket, hq]; rfl
    exact .selecting w hw hq hu hqt (hsel.trans hclosed) hf (htr.trans hw.trace)
  · exact .inside w bytes hw hp h (by rw [BusTraffic, h.trace, hw.trace, hw.opening])
  · obtain ⟨-, -, -, -, -, -, -, -, -, -, -, -, -, -, -, -, -, htr, -⟩ := commit_all w.op v.closed
    refine .committed w v bytes hw hp h hv rfl (ended_commit h) ?_
    rw [BusTraffic, State.program, htr, closed_trace, h.trace, hw.trace, hw.opening, List.append_assoc]

/-- What the sequencer comes to from a busy block or an accepted request (R82 to R89). -/
theorem resume_stepOutcome {s u : State} (hu : Launched s u) (hb : u.sq ≠ .idle) : StepOutcome s u.resume := by
  by_cases hp : u.sq.pastCheck = true
  · exact outcome_of_standing hu hp (run_standing (inv_underway hu.inv hp) maxSteps)
  · have hq : u.sq = .check := by cases hq : u.sq <;> simp_all [Sq.pastCheck]
    rcases run_check (m := u.program) hq 6 with ⟨st, hc, e⟩ | ⟨data, hc, e⟩
    · exact .rejected u st hu hq hc e
    · have hw := hu.begun hq hc
      rw [State.resume, show (maxSteps : Nat) = 6 + 1 from rfl, e]
      exact outcome_of_standing hw rfl (run_standing (inv_underway hw.inv rfl) 6)

/-- What a step comes to, whatever the transport answers. -/
theorem step_outcome {s t : State} (h : s.Inv) (hstep : step s = .next t) : StepOutcome s t := by
  have hsel : s.sq = .idle → s.sel = false := fun hq => by rw [h.sel_bracket, hq]; rfl
  rcases step_cases hstep with ⟨hr, hq, rfl⟩ | ⟨-, hq, -, rfl⟩ | ⟨-, hq, rest, f, reply, hf, rfl⟩ | ⟨-, u, hu, rfl⟩
  · exact .quiet ⟨hq, rfl, rfl, rfl, rfl, fun hn => by simp [hr] at hn,
      inv_of_idle h.cfg_wf h.cfg_wf.1 (fun _ => rfl) rfl rfl h.dev_wf⟩
  · exact .quiet ⟨hq, hq, hsel hq, rfl, rfl, fun _ => ⟨rfl, rfl⟩,
      inv_of_idle h.cfg_wf h.w0_le h.tc_variant hq (hsel hq) h.dev_wf⟩
  · exact .quiet ⟨hq, hq, hsel hq, rfl, rfl, fun _ => ⟨rfl, rfl⟩,
      inv_of_idle h.cfg_wf h.w0_le h.tc_variant hq (hsel hq) (hf _ h.dev_wf)⟩
  · exact resume_stepOutcome (hu.launched h) hu.busy_sq

/-! ### What the commit of an operation writes, seen from its frame -/

/-- The operation past CHECK at `w` is the operation at its commit. -/
theorem Inside.closed_program {w v : State} {m : MicroProgram} {bytes : List Event} (h : Inside m w v bytes) :
    v.closed.program = w.program :=
  program_congr (h.unmoved.trans (unmoved_closed v)).op

/-- A commit in which no byte failed, by operation (R89): the status, `W[0]` and `TC`, in terms of the state its frame began in. -/
theorem Inside.commit_cases {w v : State} {bytes : List Event} (h : Inside w.program w v bytes) (hck : w.Checked)
    (hf : v.fail = false) :
    let t := commit w.program v.closed
    (w.op = 0#3 ∧ t.status = .ok ∧ t.w0 = w.d ∧ t.tc = w.tc) ∨
    (w.op = 1#3 ∧ t.w0 = w.w0 ∧ t.tc = w.tc ∧ (t.status = .integrityViolation ∧ wiperMax < v.lo ∨ t.status = .ok)) ∨
    (w.op = 2#3 ∧ t.tc = w.tc ∧ (t.status = .alreadyAtBound ∧ w.w0 = wiperMax ∧ t.w0 = w.w0 ∨
      t.status = .ok ∧ w.w0 ≠ wiperMax ∧ t.w0 = w.w0 + 1#8)) ∨
    (w.op = 3#3 ∧ t.tc = w.tc ∧ (t.status = .alreadyAtBound ∧ w.w0 = wiperMin ∧ t.w0 = w.w0 ∨
      t.status = .ok ∧ w.w0 ≠ wiperMin ∧ t.w0 = w.w0 - 1#8)) ∨
    (terminalOp w.op = true ∧ w.cfg.variant = .B ∧ t.status = .ok ∧ t.w0 = w.w0 ∧
      ∃ tm, t.tc = some tm ∧ w.d = tconByte tm ∧ (w.op = 4#3 → tm = argTerminals w.arg) ∧ (w.op = 5#3 → tm = allConnected) ∧
        (w.op = 6#3 → tm = allDisconnected)) := by
  have hu := h.unmoved.trans (unmoved_closed v)
  have key := Machine.commit_cases (checked_congr hck hu) (show v.closed.fail = false by rw [closed_fail, hf])
  rw [h.closed_program, hu.op, hu.d, hu.tc, hu.w0, hu.cfg, hu.arg, closed_lo] at key
  exact key

/-- A commit after a failed byte moves no shadow register (R89). -/
theorem commit_failed_shadow {m : MicroProgram} {w v : State} {bytes : List Event} (h : Inside m w v bytes)
    (hf : v.fail = true) : (commit m v.closed).w0 = w.w0 ∧ (commit m v.closed).tc = w.tc := by
  have hu := h.unmoved.trans (unmoved_closed v)
  rw [commit_failed (by rw [closed_fail, hf])]
  exact ⟨hu.w0, hu.tc⟩

/-! ### Every step keeps the invariant -/

/-- CHECK does not reach the bus (R83). -/
theorem runCheck_peer (m : MicroProgram) (s : State) : (runCheck m s).peer = s.peer := by
  cases hc : m.check s.cfg s.arg with
  | reject st => rw [runCheck_reject hc]; rfl
  | proceed data =>
    cases data with
    | none => rw [runCheck_plain hc]; rfl
    | some d => rw [runCheck_data hc]; rfl

/-- Only the primitives themselves reach the peer. -/
theorem afterPrim_peer (op : BitVec 3) (q : Sq) (ok : Bool) (b : Byte) (s : State) :
    (afterPrim (requestProgram op) q ok b s).peer = s.peer := by
  have hlatch : (latchByte q b s).peer = s.peer := by unfold latchByte; split <;> rfl
  unfold afterPrim
  split_ifs
  · obtain ⟨-, -, -, -, -, -, -, -, -, -, -, -, -, -, hpeer, -⟩ := commit_all op s
    exact hpeer
  · exact hlatch
  · exact hlatch

/-- A primitive keeps the registers of the peer in canonical form (R30). -/
theorem primitive_dev_wf {p : Prim} {s u : State} {ok : Bool} {b : Byte} (h : Memory.wf s.peer.dev)
    (hr : primitive p s = .done u ok b) : Memory.wf u.peer.dev := by
  rcases primitive_cases s p with ⟨-, e⟩ | ⟨-, ⟨-, e⟩ | ⟨-, e⟩ | ⟨x, -, e⟩ | ⟨-, e⟩⟩ <;> rw [hr] at e <;> cases e
  · rw [opened_peer]; cases s.link <;> exact h
  · rw [closed_peer]; cases s.link <;> exact h
  · rw [sent_peer]
    split_ifs
    · cases s.link
      · exact h
      · exact write_wf _ h _
    · exact h
  · rw [gotten_peer]
    split_ifs
    · cases s.link
      · exact h
      · rw [afterRead_dev]; exact h
    · exact h

theorem advance_keeps_dev_wf {op : BitVec 3} {s t : State} (h : Memory.wf s.peer.dev)
    (ha : advance (requestProgram op) s = .moved t ∨ advance (requestProgram op) s = .halted t) : Memory.wf t.peer.dev := by
  rcases advance_cases (requestProgram op) s with
    ⟨-, e⟩ | ⟨-, e⟩ | ⟨-, -, ⟨-, e⟩ | ⟨p, -, -, e⟩ | ⟨p, u, ok, b, -, -, hr, e⟩⟩ <;>
    simp only [e, reduceCtorEq, Advance.moved.injEq, Advance.halted.injEq, or_false, false_or] at ha <;> subst ha
  · exact h
  · rw [runCheck_peer]; exact h
  · exact h
  · exact h
  · rw [afterPrim_peer]; exact primitive_dev_wf h hr

/-- Every step keeps the registers of the peer in canonical form (R30). -/
theorem step_keeps_dev_wf {s t : State} (h : Memory.wf s.peer.dev) (hstep : step s = .next t) : Memory.wf t.peer.dev := by
  rcases step_cases hstep with ⟨-, -, rfl⟩ | ⟨-, -, -, rfl⟩ | ⟨-, -, rest, f, reply, hf, rfl⟩ | ⟨-, u, hu, rfl⟩
  · exact h
  · exact h
  · exact hf _ h
  · have hpeer : u.peer = s.peer := by cases hu <;> rfl
    exact runSteps_induct (P := fun v => Memory.wf v.peer.dev) (fun _ _ => advance_keeps_dev_wf) maxSteps u
      (by rw [hpeer]; exact h)

theorem byte_add_one_le {v : Byte} (h : v ≤ wiperMax) (hne : v ≠ wiperMax) : v + 1#8 ≤ wiperMax := by
  revert v; decide

theorem byte_sub_one_le {v : Byte} (h : v ≤ wiperMax) (hne : v ≠ wiperMin) : v - 1#8 ≤ wiperMax := by
  revert v; decide

theorem saturate_le (v : Byte) : saturate v ≤ wiperMax := by revert v; decide

/-- A commit keeps `W[0]` in [0, 128]: WRW stores a saturated byte, INC and DEC step inside the bounds (R11, R55). -/
theorem committed_w0_le {w v : State} {bytes : List Event} (hw : w.Inv) (hck : w.Checked)
    (h : Inside w.program w v bytes) : (commit w.program v.closed).w0 ≤ wiperMax := by
  cases hf : v.fail with
  | true => rw [(commit_failed_shadow h hf).1]; exact hw.w0_le
  | false =>
    rcases h.commit_cases hck hf with ⟨ho, -, e, -⟩ | ⟨-, e, -⟩ | ⟨-, -, ⟨-, -, e⟩ | ⟨-, hne, e⟩⟩ |
      ⟨-, -, ⟨-, -, e⟩ | ⟨-, hne, e⟩⟩ | ⟨-, -, -, e, -⟩ <;> rw [e]
    · rw [checked_wrw hck ho]; exact saturate_le _
    · exact hw.w0_le
    · exact hw.w0_le
    · exact byte_add_one_le hw.w0_le hne
    · exact hw.w0_le
    · exact byte_sub_one_le hw.w0_le hne
    · exact hw.w0_le

/-- A commit gives `TC` a value in variant B only (R13, R130). -/
theorem committed_tc_variant {w v : State} {bytes : List Event} (hw : w.Inv) (hck : w.Checked)
    (h : Inside w.program w v bytes) (hA : w.cfg.variant = .A) : (commit w.program v.closed).tc = none := by
  cases hf : v.fail with
  | true => rw [(commit_failed_shadow h hf).2]; exact hw.tc_variant hA
  | false =>
    rcases h.commit_cases hck hf with ⟨-, -, -, e⟩ | ⟨-, -, e, -⟩ | ⟨-, e, -⟩ | ⟨-, e, -⟩ | ⟨-, hB, -⟩
    · rw [e]; exact hw.tc_variant hA
    · rw [e]; exact hw.tc_variant hA
    · rw [e]; exact hw.tc_variant hA
    · rw [e]; exact hw.tc_variant hA
    · simp [hA] at hB

/-- A block that waits somewhere in its frame keeps the invariant: no register but the response latches has moved. -/
theorem inv_of_waiting {w t : State} (hw : w.Inv) (hck : w.Checked) (hu : Unmoved w t) (hs : Underway w.program t)
    (hp : Memory.wf t.peer.dev) (hb : w.sq ≠ .idle) : t.Inv where
  cfg_wf := by rw [hu.cfg]; exact hw.cfg_wf
  w0_le := by rw [hu.w0]; exact hw.w0_le
  sel_bracket := hs.bracket
  tc_variant := by rw [hu.cfg, hu.tc]; exact hw.tc_variant
  in_frame := fun _ => by rw [program_congr hu.op]; exact hs.in_frame
  checked := fun _ => checked_congr hck hu
  fail_finish := fun hf => .inr (hs.failed hf)
  rsp_idle := fun hv => by rw [hu.rspValid, hw.rsp_busy hb] at hv; cases hv
  dev_wf := hp

/-- A block inside its bracket is under way. -/
theorem Inside.underway {m : MicroProgram} {w t : State} {bytes : List Event} (h : Inside m w t bytes) : Underway m t := by
  obtain ⟨hsel, hbr⟩ := h.bracket
  refine ⟨?_, h.format, by rw [hsel, hbr], fun hf => (h.bad hf).1⟩
  cases hq : t.sq <;> simp_all [Sq.pastCheck, Sq.inBracket]

/-- The frame begins at a busy block. -/
theorem Launched.busy {s w : State} (h : Launched s w) : w.sq ≠ .idle := by
  rcases h.stands with ⟨rfl, hb⟩ | ⟨-, hq | hq⟩
  · exact hb
  · simp [hq]
  · simp [hq]

/-- Settles O16: by what the step comes to. -/
theorem everyStepKeepsTheInvariant : Obligations.EveryStepKeepsTheInvariant := by
  intro s t h hstep
  have hdev := step_keeps_dev_wf h.dev_wf hstep
  cases step_outcome h hstep with
  | quiet hquiet => exact hquiet.inv
  | rejected u st hu hq _ e =>
    subst e
    have hi := hu.inv
    exact inv_of_idle hi.cfg_wf hi.w0_le hi.tc_variant rfl (by simp [hi.sel_bracket, hq, Sq.inBracket]) hi.dev_wf
  | selecting w hw hq hum hqt hsel hf _ =>
    have hck : w.Checked := hw.inv.checked (by rw [hq]; rfl)
    exact inv_of_waiting hw.inv hck hum ⟨by rw [hqt]; rfl, by rw [hqt]; rfl, by rw [hsel, hqt]; rfl, by simp [hf]⟩ hdev hw.busy
  | inside w bytes hw hp hin _ => exact inv_of_waiting hw.inv (hw.inv.checked hp) hin.unmoved hin.underway hdev hw.busy
  | committed w v bytes hw hp hin _ e hend _ =>
    have hck := hw.inv.checked hp
    refine inv_of_idle (by rw [hend.cfg]; exact hw.inv.cfg_wf) (e ▸ committed_w0_le hw.inv hck hin) (fun hA => ?_) hend.sq
      hend.sel hdev
    rw [hend.cfg] at hA
    exact e ▸ committed_tc_variant hw.inv hck hin hA

end Sys2Proof.Machine
end

section
/-! PROOF. What a step puts on the bus, and when it fails (spec/41_sequencer.md R81 to R86; 70_reset_and_hazards.md R194). -/

namespace Sys2Proof.Machine

/-! ### The primitives of a frame -/

theorem opening_closed {s : State} (h : s.sel = false) : s.opening = [.selected] := by simp [State.opening, h]

theorem opening_open {s : State} (h : s.sel = true) : s.opening = [] := by simp [State.opening, h]

/-- `Select` does not fail (R81). -/
theorem opening_not_failed {s : State} {e : Event} (h : e ∈ s.opening) : e.failed = false := by
  unfold State.opening at h
  split at h <;> simp at h
  subst h; rfl

/-- In a busy block a failed byte means that only `Deselect` is left (R85). -/
theorem State.Inv.finish_of_fail {w : State} (h : w.Inv) (hb : w.sq ≠ .idle) (hf : w.fail = true) : w.sq = .finish :=
  (h.fail_finish hf).resolve_left hb

/-- No response stands while an operation runs (R92). -/
theorem Launched.no_response {s w t : State} (hw : Launched s w) (hu : Unmoved w t) : t.rspValid = false := by
  rw [hu.rspValid]; exact hw.inv.rsp_busy hw.busy

/-- Before `Select` has completed, the bracket was closed and no byte of the operation had failed (R15, R85). -/
theorem Launched.fresh {s w : State} (hw : Launched s w) (hq : w.sq.inBracket = false) : s.sel = false ∧ ¬ s.AlreadyFailed := by
  refine ⟨by rw [← hw.sel, hw.inv.sel_bracket, hq], fun hs => ?_⟩
  simp [(hw.alreadyFailed_iff.mpr hs).1, Sq.inBracket] at hq

section
variable {s w v : State} {m : MicroProgram} {bytes : List Event} (h : Inside m w v bytes)
include h

/-- The mark of a failure is set exactly when a byte failed, in this run or before (R85). -/
theorem Inside.fail_iff (hw : Launched s w) : v.fail = true ↔ s.AlreadyFailed ∨ ∃ e ∈ bytes, e.failed = true := by
  rw [← hw.alreadyFailed_iff]
  constructor
  · intro hf
    rcases (h.bad hf).2 with ⟨hwf, -⟩ | ⟨-, before, e, rfl, he, -⟩
    · exact .inl ⟨hw.inv.finish_of_fail hw.busy hwf, hwf⟩
    · exact .inr ⟨e, by simp, he⟩
  · intro hor
    cases hf : v.fail
    · obtain ⟨hwf, hgood, -⟩ := h.good hf
      rcases hor with ⟨-, hwf'⟩ | ⟨e, he, hef⟩
      · simp [hwf] at hwf'
      · simp [hgood e he] at hef
    · rfl

/-- A byte that failed before leaves nothing but `Deselect` to do (R85). -/
theorem Inside.bytes_nil (hw : Launched s w) (hs : s.AlreadyFailed) : v.fail = true ∧ bytes = [] := by
  have hf := (h.fail_iff hw).mpr (.inl hs)
  refine ⟨hf, ?_⟩
  rcases (h.bad hf).2 with ⟨-, e⟩ | ⟨hwf, -⟩
  · exact e
  · simp [(hw.alreadyFailed_iff.mpr hs).2] at hwf

/-- A frame that reaches its `Deselect` from its first byte has done a byte (R52). -/
theorem Inside.bytes_ne_nil (hw : Launched s w) (h0 : bytesDone m.format w.sq = 0) (hv : v.sq = .finish) : bytes ≠ [] := by
  rintro rfl
  have hne : w.sq ≠ .finish := fun e => by cases hf : m.format <;> simp [bytesDone, e, hf] at h0
  cases hf : v.fail with
  | true =>
    rcases (h.bad hf).2 with ⟨hwf, -⟩ | ⟨-, before, e, hnil, -⟩
    · exact hne (hw.inv.finish_of_fail hw.busy hwf)
    · simp at hnil
  | false =>
    have hlen := (h.good hf).2.2
    rw [hv, h0] at hlen
    cases hm : m.format <;> simp [bytesDone, hm] at hlen

end

/-- Where one event of a list failed and no other did, a split at a failed event is a split there. -/
theorem split_at_failed {l tail before after : List Event} {e e' : Event} (hl : ∀ x ∈ l, x.failed = false)
    (ht : ∀ x ∈ tail, x.failed = false) (he : e.failed = true) (h : l ++ e' :: tail = before ++ e :: after) : after = tail := by
  induction l generalizing before with
  | nil =>
    cases before with
    | nil => exact (List.cons.inj h).2.symm
    | cons b before =>
      have hmem : e ∈ tail := by rw [(List.cons.inj h).2]; simp
      simp [ht e hmem] at he
  | cons x l ih =>
    cases before with
    | nil => simp [(List.cons.inj h).1 ▸ hl x (by simp)] at he
    | cons b before => exact ih (fun y hy => hl y (by simp [hy])) (List.cons.inj h).2

/-- After a failed byte the frame has nothing but `tail`, which is `Deselect` or nothing yet (R85). -/
theorem Inside.after_failed {s w v : State} {m : MicroProgram} {bytes tail before after : List Event} {e : Event}
    (h : Inside m w v bytes) (hw : Launched s w) (ht : ∀ x ∈ tail, x.failed = false)
    (hsplit : s.opening ++ bytes ++ tail = before ++ e :: after) (he : e.failed = true) :
    after = tail ∧ v.sq = .finish ∧ v.fail = true := by
  have hmem : e ∈ bytes := by
    have : e ∈ s.opening ++ bytes ++ tail := by rw [hsplit]; simp
    simp only [List.mem_append] at this
    rcases this with (hm | hm) | hm
    · simp [opening_not_failed hm] at he
    · exact hm
    · simp [ht e hm] at he
  have hf : v.fail = true := (h.fail_iff hw).mpr (.inr ⟨e, hmem, he⟩)
  obtain ⟨hfin, ⟨-, hnil⟩ | ⟨-, front, last, hbytes, -, hfront⟩⟩ := h.bad hf
  · simp [hnil] at hmem
  · refine ⟨split_at_failed (l := s.opening ++ front) (e' := last) ?_ ht he (by simpa [hbytes] using hsplit), hfin, hf⟩
    intro x hx
    rcases List.mem_append.mp hx with hx | hx
    · exact opening_not_failed hx
    · exact hfront x hx

/-- A rejection at CHECK is no TransportFailure (R160). -/
theorem reject_status {u : State} {st : Status} (h : u.program.check u.cfg u.arg = .reject st) :
    st = .rangeViolation ∨ st = .unsupported := by
  rcases check_reject h with ⟨-, -, -, e⟩ | ⟨-, e⟩
  · exact .inl e
  · exact .inr e

/-- A step that issues no primitive. -/
theorem busTraffic_nil {s t : State} (h : t.trace = s.trace) : BusTraffic s t [] := by rw [BusTraffic, h, List.append_nil]

/-- The same for a failed byte anywhere in what a step put on the bus. -/
theorem Inside.fail_iff_traffic {s w v : State} {m : MicroProgram} {bytes tail : List Event} (h : Inside m w v bytes)
    (hw : Launched s w) (ht : ∀ x ∈ tail, x.failed = false) :
    v.fail = true ↔ s.AlreadyFailed ∨ ∃ e ∈ s.opening ++ bytes ++ tail, e.failed = true := by
  rw [h.fail_iff hw]
  refine or_congr_right ⟨fun ⟨e, he, hf⟩ => ⟨e, by simp [he], hf⟩, fun ⟨e, he, hf⟩ => ⟨e, ?_, hf⟩⟩
  simp only [List.mem_append] at he
  rcases he with (he | he) | he
  · simp [opening_not_failed he] at hf
  · exact he
  · simp [ht e he] at hf

theorem deselected_not_failed : ∀ x ∈ [Event.deselected], x.failed = false := by simp [Event.failed]

/-- Settles O33: a rejected request has issued no primitive; a frame marks its failed byte, and its commit reads the mark. -/
theorem transportFailureMeansAFailedByte : Obligations.TransportFailureMeansAFailedByte := by
  intro s t h hstep
  cases step_outcome h hstep with
  | quiet hquiet =>
    exact ⟨[], busTraffic_nil hquiet.trace, by simp [hquiet.rspValid], fun hb => absurd hquiet.sq hb⟩
  | rejected u st hu hq hr e =>
    subst e
    refine ⟨[], busTraffic_nil hu.trace, fun _ => ?_, fun hb => absurd rfl hb⟩
    obtain ⟨-, hs⟩ := hu.fresh (by rw [hq]; rfl)
    rcases reject_status hr with rfl | rfl <;> simp [hs]
  | selecting w hw hq hum hqt hsel hf htr =>
    obtain ⟨-, hs⟩ := hw.fresh (by rw [hq]; rfl)
    exact ⟨[], busTraffic_nil htr, by simp [hw.no_response hum], fun _ => ⟨fun ht => by simp [State.AlreadyFailed, hf] at ht, by simp [hs]⟩⟩
  | inside w bytes hw hp hin htr =>
    refine ⟨_, htr, by simp [hw.no_response hin.unmoved], fun _ => ?_⟩
    have hmark := hin.fail_iff_traffic hw (tail := []) (by simp)
    rw [List.append_nil] at hmark
    rw [← hmark]
    exact ⟨And.right, fun hf => ⟨(hin.bad hf).1, hf⟩⟩
  | committed w v bytes hw hp hin hv e hend htr =>
    exact ⟨_, htr, fun _ => hend.failed.trans (hin.fail_iff_traffic hw deselected_not_failed), fun hb => absurd hend.sq hb⟩

/-- Settles O34: after its failed byte a frame has only its `Deselect`, done by the commit or still to come. -/
theorem failedByteIsFollowedByDeselect : Obligations.FailedByteIsFollowedByDeselect := by
  intro s t h hstep
  have hopen : s.AlreadyFailed → s.opening = [] := fun hs => opening_open (by rw [h.sel_bracket, hs.1]; rfl)
  cases step_outcome h hstep with
  | quiet hquiet =>
    exact ⟨[], busTraffic_nil hquiet.trace, fun hs => by simp [State.AlreadyFailed, hquiet.was_idle] at hs, by simp⟩
  | rejected u st hu hq hr e =>
    subst e
    obtain ⟨-, hs⟩ := hu.fresh (by rw [hq]; rfl)
    exact ⟨[], busTraffic_nil hu.trace, fun hf => absurd hf hs, by simp⟩
  | selecting w hw hq hum hqt hsel hf htr =>
    obtain ⟨-, hs⟩ := hw.fresh (by rw [hq]; rfl)
    exact ⟨[], busTraffic_nil htr, fun hf => absurd hf hs, by simp⟩
  | inside w bytes hw hp hin htr =>
    refine ⟨_, htr, fun hs => .inr ?_, fun before e after hsplit he => .inr ?_⟩
    · obtain ⟨hf, hnil⟩ := hin.bytes_nil hw hs
      exact ⟨by simp [hopen hs, hnil], (hin.bad hf).1, hf⟩
    · exact hin.after_failed hw (tail := []) (by simp) (by rw [List.append_nil]; exact hsplit) he
  | committed w v bytes hw hp hin hv e hend htr =>
    refine ⟨_, htr, fun hs => .inl ?_, fun before e after hsplit he => .inl ?_⟩
    · exact ⟨by simp [hopen hs, (hin.bytes_nil hw hs).2], hend.rspValid⟩
    · exact ⟨(hin.after_failed hw deselected_not_failed hsplit he).1, hend.rspValid⟩

/-- Settles O35: the bracket opens with `Select`, holds byte primitives, and is closed by the `Deselect` before the commit. -/
theorem everyBracketIsClosedOnce : Obligations.EveryBracketIsClosedOnce := by
  intro s t h hstep
  cases step_outcome h hstep with
  | quiet hquiet =>
    exact ⟨[], busTraffic_nil hquiet.trace, by simp [hquiet.rspValid], fun hb => absurd hquiet.sq hb,
      fun _ _ => ⟨rfl, hquiet.sel⟩⟩
  | rejected u st hu hq hr e =>
    subst e
    obtain ⟨hs, -⟩ := hu.fresh (by rw [hq]; rfl)
    exact ⟨[], busTraffic_nil hu.trace, fun _ => ⟨hu.sel.trans hs, fun _ => .inl rfl, by simp [hs]⟩,
      fun hb => absurd rfl hb, fun hr => nomatch hr⟩
  | selecting w hw hq hum hqt hsel hf htr =>
    obtain ⟨hs, -⟩ := hw.fresh (by rw [hq]; rfl)
    exact ⟨[], busTraffic_nil htr, by simp [hw.no_response hum], fun _ => ⟨fun _ => .inl ⟨rfl, hsel⟩, by simp [hs]⟩, by simp [hqt]⟩
  | inside w bytes hw hp hin htr =>
    obtain ⟨hsel, hbr⟩ := hin.bracket
    refine ⟨_, htr, by simp [hw.no_response hin.unmoved], fun _ => ⟨fun hs => .inr ⟨bytes, hin.isByte, ?_, hsel⟩, fun hs => ⟨?_, hsel⟩⟩,
      fun _ hidle => by simp [hidle, Sq.inBracket] at hbr⟩
    · rw [opening_closed hs]; rfl
    · rw [opening_open hs]; exact hin.isByte
  | committed w v bytes hw hp hin hv e hend htr =>
    refine ⟨_, htr, fun _ => ⟨hend.sel, fun hs => .inr ⟨bytes, hin.isByte, ?_⟩, fun hs => ⟨bytes, hin.isByte, ?_⟩⟩,
      fun hb => absurd hend.sq hb, by simp [hend.rspValid]⟩
    · rw [opening_closed hs]; rfl
    · rw [opening_open hs]; rfl

/-! ### What the block asks the transport for (R91) -/

/-- A block somewhere in its frame asks for a primitive (R83, R90). -/
theorem Underway.tReq {s : State} (h : Underway s.program s) : s.tReq = true := by
  have hform := h.in_frame
  have hpast := h.past
  unfold State.tReq State.asking currentPrim bytePrim
  cases hq : s.sq <;> cases hf : s.program.format <;> simp_all [Sq.inFormat, Sq.pastCheck]

/-- Settles O36: a block left waiting stands in its frame, where no register but the response latches moves (R89). -/
theorem hungOperationChangesNoRegister : Obligations.HungOperationChangesNoRegister := by
  intro s t h hstep hb
  have hsel : t.sel = t.sq.inBracket := step_keeps_sel_bracket h.sel_bracket hstep
  have key : ∀ w, Launched s w → Unmoved w t → Underway w.program t →
      t.w0 = s.w0 ∧ t.tc = s.tc ∧ t.status = s.status ∧ t.rdata = s.rdata ∧ t.rspValid = false ∧ t.sel = t.sq.inBracket ∧
      t.tReq = true ∧ (s.sq ≠ .idle → t.op = s.op ∧ t.arg = s.arg) := by
    intro w hw hu hs
    rw [← program_congr hu.op] at hs
    exact ⟨hu.w0.trans hw.w0, hu.tc.trans hw.tc, hu.status.trans hw.status, hu.rdata.trans hw.rdata,
      hw.no_response hu, hsel, hs.tReq, fun hsb => ⟨hu.op.trans (hw.latched hsb).1, hu.arg.trans (hw.latched hsb).2⟩⟩
  cases step_outcome h hstep with
  | quiet hquiet => exact absurd hquiet.sq hb
  | rejected u st hu hq hr e => subst e; exact absurd rfl hb
  | selecting w hw hq hum hqt hs hf _ =>
    exact key w hw hum ⟨by rw [hqt]; rfl, by rw [hqt]; rfl, hsel, by simp [hf]⟩
  | inside w bytes hw hp hin _ => exact key w hw hin.unmoved hin.underway
  | committed w v bytes hw hp hin hv e hend _ => exact absurd hend.sq hb

/-- A commit whose status is no OK moves no shadow register (R89, R168). -/
theorem committed_error_shadow {w v : State} {bytes : List Event} (h : Inside w.program w v bytes) (hck : w.Checked)
    (hne : (commit w.program v.closed).status ≠ .ok) :
    (commit w.program v.closed).w0 = w.w0 ∧ (commit w.program v.closed).tc = w.tc := by
  cases hf : v.fail with
  | true => exact commit_failed_shadow h hf
  | false =>
    rcases h.commit_cases hck hf with ⟨-, e, -⟩ | ⟨-, hw0, htc, -⟩ | ⟨-, htc, ⟨-, -, hw0⟩ | ⟨e, -⟩⟩ |
      ⟨-, htc, ⟨-, -, hw0⟩ | ⟨e, -⟩⟩ | ⟨-, -, e, -⟩
    · exact absurd e hne
    · exact ⟨hw0, htc⟩
    · exact ⟨hw0, htc⟩
    · exact absurd e hne
    · exact ⟨hw0, htc⟩
    · exact absurd e hne
    · exact absurd e hne

/-- Settles O39: a rejection has not reached the bus; a commit follows `Deselect`. -/
theorem errorLeavesTheShadowRegisters : Obligations.ErrorLeavesTheShadowRegisters := by
  intro s t h hstep hidle hrsp hne
  cases step_outcome h hstep with
  | quiet hquiet => simp [hquiet.rspValid] at hrsp
  | rejected u st hu hq hr e =>
    subst e
    obtain ⟨hs, -⟩ := hu.fresh (by rw [hq]; rfl)
    exact ⟨hu.w0, hu.tc, hu.sel.trans hs, [], busTraffic_nil hu.trace, .inl ⟨rfl, hs⟩⟩
  | selecting w hw hq hum hqt hsel hf _ => simp [hqt] at hidle
  | inside w bytes hw hp hin _ => simp [hw.no_response hin.unmoved] at hrsp
  | committed w v bytes hw hp hin hv e hend htr =>
    subst e
    obtain ⟨hw0, htc⟩ := committed_error_shadow hin (hw.inv.checked hp) hne
    exact ⟨hw0.trans hw.w0, htc.trans hw.tc, hend.sel, _, htr, .inr (by simp)⟩

end Sys2Proof.Machine
end

section
/-! PROOF. What the steps of an operation report, write and send (spec/10_state.md R24; 41_sequencer.md; 60_exceptions.md;
70_reset_and_hazards.md R193, R194). -/

namespace Sys2Proof.Machine

/-! ### How many primitives a frame has (R194) -/

/-- The primitives left at a step of the frame: `Select` where the bracket is closed, the bytes not yet done, `Deselect`. -/
theorem frame_length {op : BitVec 3} (hop : op ≠ 7#3) {q : Sq} (hq : q.inFormat (requestProgram op).format = true) {n : Nat}
    (hn : bytesDone (requestProgram op).format .finish = bytesDone (requestProgram op).format q + n) :
    (if q.inBracket then 0 else 1) + n + 1 = primitivesLeft op q := by
  have key : ∀ op : BitVec 3, op ≠ 7#3 → ((requestProgram op).format = .w2 ∧ operationPrimitives op = 4) ∨
      ((requestProgram op).format = .r4 ∧ operationPrimitives op = 6) ∨
      ((requestProgram op).format = .s1 ∧ operationPrimitives op = 3) := by decide
  rcases key op hop with ⟨hf, hp⟩ | ⟨hf, hp⟩ | ⟨hf, hp⟩ <;> rw [hf] at hq hn <;>
    cases q <;> simp [Sq.inFormat, Sq.inBracket, bytesDone, primitivesLeft, hp] at hq hn ⊢ <;> omega

/-- What a frame in which no byte failed has put on the bus when it is committed (R194). -/
theorem Inside.traffic_length {s w v : State} {bytes : List Event} (h : Inside w.program w v bytes) (hw : Launched s w)
    (hp : w.sq.pastCheck = true) (hv : v.sq = .finish) (hf : v.fail = false) :
    (s.opening ++ bytes ++ [Event.deselected]).length = primitivesLeft w.op s.sq := by
  have hlen := (h.good hf).2.2
  rw [hv] at hlen
  have hop : w.op ≠ 7#3 := checked_reserved (hw.inv.checked hp)
  have hcount := frame_length hop (hw.inv.in_frame hp) hlen
  rw [← hw.inv.sel_bracket, hw.sel, hw.primitivesLeft_eq] at hcount
  rw [← hcount, List.length_append, List.length_append, State.opening]
  cases s.sel <;> rfl

/-- A commit reports no result of CHECK (R160). -/
theorem committed_status {w v : State} {bytes : List Event} (h : Inside w.program w v bytes) (hck : w.Checked) :
    (commit w.program v.closed).status ≠ .rangeViolation ∧ (commit w.program v.closed).status ≠ .unsupported := by
  cases hf : v.fail with
  | true => rw [commit_failed (by rw [closed_fail, hf])]; simp
  | false =>
    rcases h.commit_cases hck hf with ⟨-, e, -⟩ | ⟨-, -, -, ⟨e, -⟩ | e⟩ | ⟨-, -, ⟨e, -⟩ | ⟨e, -⟩⟩ | ⟨-, -, ⟨e, -⟩ | ⟨e, -⟩⟩ |
      ⟨-, -, e, -⟩ <;> simp [e]

/-- Settles O43: a rejection issues none; a commit follows the primitives left of its frame, or a failed byte and `Deselect`. -/
theorem primitiveCounts : Obligations.PrimitiveCounts := by
  intro s t h hstep hrsp
  cases step_outcome h hstep with
  | quiet hquiet => simp [hquiet.rspValid] at hrsp
  | rejected u st hu hq hr e =>
    subst e
    obtain ⟨hs, -⟩ := hu.fresh (by rw [hq]; rfl)
    refine ⟨[], busTraffic_nil hu.trace, fun _ => ⟨hs, rfl⟩, fun h1 h2 => ?_, by simp, by simp⟩
    rcases reject_status hr with rfl | rfl
    · exact absurd rfl h1
    · exact absurd rfl h2
  | selecting w hw hq hum hqt hsel hf htr => simp [hw.no_response hum] at hrsp
  | inside w bytes hw hp hin htr => simp [hw.no_response hin.unmoved] at hrsp
  | committed w v bytes hw hp hin hv e hend htr =>
    obtain ⟨hne1, hne2⟩ := committed_status hin (hw.inv.checked hp)
    rw [← e] at hne1 hne2
    refine ⟨_, htr, fun hor => (hor.elim hne1 hne2).elim, fun _ _ hne => ?_, fun hs bs e' after hsplit he => ?_,
      fun hs bs e' after hsplit he => ?_⟩
    · have hf : v.fail = false := by simpa using hend.failed.not.mp hne
      rw [hend.op, hin.traffic_length hw hp hv hf]
    · obtain ⟨rfl, -⟩ := hin.after_failed hw deselected_not_failed hsplit he
      rw [hsplit]; simp
    · obtain ⟨rfl, -⟩ := hin.after_failed hw deselected_not_failed hsplit he
      rw [hsplit]; simp

/-! ### The command bytes on the bus (R54) -/

/-- The command byte of an operation is the one its micro-program sends (R54, R90). -/
theorem operationByte_eq (c : Config) {op : BitVec 3} (hop : op ≠ 7#3) :
    operationByte c op = some ((requestProgram op).cmd c) := by
  have hbyte : ∀ (addr : RegAddr) (code : BitVec 2), some (cmdByte addr code) = some (busByte addr code 0#2) :=
    fun addr code => congrArg some (busByte_eq addr code 0#2).symm
  rcases opcode_cases op with rfl | rfl | rfl | rfl | rfl | rfl | rfl | rfl
  · exact hbyte _ _
  · exact hbyte _ _
  · exact hbyte _ _
  · exact hbyte _ _
  · exact hbyte _ _
  · exact hbyte _ _
  · exact hbyte _ _
  · exact absurd rfl hop

/-- The command byte of an operation is one of the five, with 00 in its low bits (R54, R57). -/
theorem operationByte_mem {c : Config} {op : BitVec 3} {b : Byte} (h : operationByte c op = some b) :
    b ∈ emittedBytes c ∧ b.extractLsb' 0 2 = 0#2 := by
  have key : ∀ (addr : RegAddr) (code : BitVec 2), (cmdByte addr code).extractLsb' 0 2 = 0#2 := by decide
  unfold operationByte at h
  split_ifs at h <;> cases h <;> exact ⟨by simp [emittedBytes], key _ _⟩

/-- A bracket opens with the command byte of its operation: the first byte of a frame begun at `Select` or at its command byte
(R54, R90). `tail` is the `Deselect` of a committed frame. -/
theorem Inside.first_byte {s w v : State} {bytes tail rest : List Event} {e : Event} (h : Inside w.program w v bytes)
    (hw : Launched s w) (hp : w.sq.pastCheck = true) (h0 : w.sq = .select ∨ w.sq = .b0) (ht : tail ≠ [] → v.sq = .finish)
    (hsplit : bytes ++ tail = e :: rest) :
    ∃ b ok, e = .wrote b ok ∧ b ∈ emittedBytes s.cfg ∧ b.extractLsb' 0 2 = 0#2 ∧ operationByte s.cfg w.op = some b := by
  have hdone : bytesDone w.program.format w.sq = 0 := by rcases h0 with hq | hq <;> simp [hq, bytesDone]
  have hbyte := operationByte_eq s.cfg (checked_reserved (hw.inv.checked hp))
  cases bytes with
  | nil =>
    have hv : v.sq = .finish := ht (by rintro rfl; simp at hsplit)
    exact absurd rfl (h.bytes_ne_nil hw hdone hv)
  | cons first more =>
    obtain ⟨ok, hfirst⟩ := h.first hdone first more rfl
    rw [List.cons_append, List.cons.injEq] at hsplit
    obtain ⟨hmem, hlow⟩ := operationByte_mem hbyte
    exact ⟨_, ok, by rw [← hsplit.1, hfirst, hw.cfg]; rfl, hmem, hlow, hbyte⟩

/-- What a frame and its tail have put on the bus opens with the command byte of the operation. -/
theorem Inside.opensWith {s w v : State} {bytes tail : List Event} (h : Inside w.program w v bytes) (hw : Launched s w)
    (hp : w.sq.pastCheck = true) (ht : tail ≠ [] → v.sq = .finish) :
    OpensWith s (s.opening ++ bytes ++ tail) fun b =>
      b ∈ emittedBytes s.cfg ∧ b.extractLsb' 0 2 = 0#2 ∧ operationByte s.cfg w.op = some b := by
  constructor
  · intro hs first e rest hsplit
    rw [opening_closed hs, List.singleton_append, List.cons_append, List.cons.injEq] at hsplit
    have hq : w.sq = .select := by
      have hclosed := hw.inv.sel_bracket
      rw [hw.sel, hs] at hclosed
      revert hclosed hp
      cases w.sq <;> simp [Sq.inBracket, Sq.pastCheck]
    exact ⟨hsplit.1.symm, h.first_byte hw hp (.inl hq) ht hsplit.2⟩
  · intro hq e rest hsplit
    have hws : w = s := by
      rcases hw.stands with ⟨hws, -⟩ | ⟨hi | hi, -⟩
      · exact hws
      · simp [hq] at hi
      · simp [hq] at hi
    have hopen : s.sel = true := by rw [← hw.sel, hw.inv.sel_bracket, hws, hq]; rfl
    rw [opening_open hopen, List.nil_append] at hsplit
    exact h.first_byte hw hp (.inr (hws ▸ hq)) ht hsplit

/-- A step that issues no primitive opens no bracket. -/
theorem opensWith_nil (s : State) (P : Byte → Prop) : OpensWith s [] P := ⟨by simp, by simp⟩

/-- Settles O42: only a frame of the sequencer reaches the bus, and it begins with the command byte of its operation. -/
theorem stepsEmitOnlyTheFiveCommandBytes : Obligations.StepsEmitOnlyTheFiveCommandBytes := by
  intro s t h hstep
  cases step_outcome h hstep with
  | quiet hquiet => exact ⟨[], busTraffic_nil hquiet.trace, opensWith_nil _ _⟩
  | rejected u st hu hq hr e => subst e; exact ⟨[], busTraffic_nil hu.trace, opensWith_nil _ _⟩
  | selecting w hw hq hum hqt hsel hf htr => exact ⟨[], busTraffic_nil htr, opensWith_nil _ _⟩
  | inside w bytes hw hp hin htr =>
    refine ⟨_, htr, ?_⟩
    rw [hin.unmoved.op, ← List.append_nil (s.opening ++ bytes)]
    exact hin.opensWith hw hp (by simp)
  | committed w v bytes hw hp hin hv e hend htr =>
    refine ⟨_, htr, ?_⟩
    rw [hend.op]
    exact hin.opensWith hw hp fun _ => hv

/-! ### What a commit reports -/

/-- The commit of RDW (R110): IntegrityViolation above 128, else OK with the low byte. -/
theorem commit_rdw {v : State} (ho : v.op = 1#3) (hf : v.fail = false) :
    (wiperMax < v.lo → (commit v.program v).status = .integrityViolation) ∧
    (¬ wiperMax < v.lo → (commit v.program v).status = .ok ∧ (commit v.program v).rdata = v.lo) := by
  rw [commit_good hf, State.program, ho, requestProgram_rdw]
  simp only [rdwProgram, memRead]
  unfold rdwCommit
  constructor <;> intro h
  · rw [if_pos h]; rfl
  · rw [if_neg h]; exact ⟨rfl, rfl⟩

theorem byte_lt_iff (v : Byte) : wiperMax < v ↔ 128 < v.toNat := Iff.rfl

/-- What RDW reports, by its low byte, when no byte failed (R110). -/
theorem Inside.commit_rdw {w v : State} {bytes : List Event} (h : Inside w.program w v bytes) (ho : w.op = 1#3)
    (hf : v.fail = false) :
    (128 < v.lo.toNat → (commit w.program v.closed).status = .integrityViolation) ∧
    (v.lo.toNat ≤ 128 → (commit w.program v.closed).status = .ok ∧ (commit w.program v.closed).rdata = v.lo) := by
  have hop := (h.unmoved.trans (unmoved_closed v)).op
  have key := Machine.commit_rdw (v := v.closed) (hop.trans ho) (by rw [closed_fail, hf])
  rw [h.closed_program, closed_lo] at key
  exact ⟨key.1, fun hle => key.2 (Nat.not_lt.mpr hle)⟩

/-- Which operations report IntegrityViolation and AlreadyAtBound, and on what (R163, R164). -/
theorem committed_value_errors {w v : State} {bytes : List Event} (h : Inside w.program w v bytes) (hck : w.Checked)
    (hf : v.fail = false) :
    ((commit w.program v.closed).status = .integrityViolation → w.op = 1#3 ∧ 128 < v.lo.toNat) ∧
    ((commit w.program v.closed).status = .alreadyAtBound → w.op = 2#3 ∧ w.w0 = 128#8 ∨ w.op = 3#3 ∧ w.w0 = 0#8) := by
  rcases h.commit_cases hck hf with ⟨-, e, -⟩ | ⟨ho, -, -, ⟨e, hlo⟩ | e⟩ | ⟨ho, -, ⟨e, hw, -⟩ | ⟨e, -⟩⟩ |
    ⟨ho, -, ⟨e, hw, -⟩ | ⟨e, -⟩⟩ | ⟨-, -, e, -⟩
  · simp [e]
  · exact ⟨fun _ => ⟨ho, hlo⟩, by simp [e]⟩
  · simp [e]
  · exact ⟨by simp [e], fun _ => .inl ⟨ho, hw⟩⟩
  · simp [e]
  · exact ⟨by simp [e], fun _ => .inr ⟨ho, hw⟩⟩
  · simp [e]
  · simp [e]

/-- Settles O40: CHECK reports neither; a commit reports them in the order of R89, TransportFailure first. -/
theorem valueErrorsComeAfterAWholeFrame : Obligations.ValueErrorsComeAfterAWholeFrame := by
  intro s t h hstep hrsp
  cases step_outcome h hstep with
  | quiet hquiet => simp [hquiet.rspValid] at hrsp
  | rejected u st hu hq hr e =>
    subst e
    have hop : u.op ≠ 1#3 := fun ho => by
      rcases check_reject hr with ⟨h0, -⟩ | ⟨⟨ht, -⟩ | h7, -⟩ <;> simp_all [terminalOp]
    have hfin : s.sq ≠ .finish := fun hf => by simp [hu.finish_iff.mpr hf] at hq
    refine ⟨[], busTraffic_nil hu.trace, ?_, ?_, ?_, fun ho => absurd ho hop, fun ho => absurd ho hop, fun ho => absurd ho hop,
      fun hf => absurd hf hfin⟩ <;> rcases reject_status hr with rfl | rfl <;> simp
  | selecting w hw hq hum hqt hsel hf htr => simp [hw.no_response hum] at hrsp
  | inside w bytes hw hp hin htr => simp [hw.no_response hin.unmoved] at hrsp
  | committed w v bytes hw hp hin hv e hend htr =>
    have hck := hw.inv.checked hp
    have hok : t.status ≠ .transportFailure → v.fail = false := fun hne => by simpa using hend.failed.not.mp hne
    have hmark := hin.fail_iff_traffic hw deselected_not_failed
    rw [hend.op, hend.lo]
    refine ⟨_, htr, fun hst => ?_, fun hst => ?_, fun hst => ?_, fun ho hst => ?_, fun ho hs hno hlo => ?_,
      fun ho hs hne => ?_, fun hs => ?_⟩
    · exact (committed_value_errors hin hck (hok (by simp [hst]))).1 (e ▸ hst)
    · rw [← hw.w0]
      exact (committed_value_errors hin hck (hok (by simp [hst]))).2 (e ▸ hst)
    · have hf : v.fail = false := hok (by rcases hst with hst | hst <;> simp [hst])
      have hnone := hmark.not.mp (by simp [hf])
      push Not at hnone
      obtain ⟨hw0, htc⟩ := committed_error_shadow hin hck (by rw [← e]; rcases hst with hst | hst <;> simp [hst])
      rw [e]
      exact ⟨hnone.1, fun x hx => by simpa using hnone.2 x hx, hin.traffic_length hw hp hv hf, hw0.trans hw.w0, htc.trans hw.tc⟩
    · have hf : v.fail = false := hok (by simp [hst])
      have hle : v.lo.toNat ≤ 128 := by
        by_contra hgt
        rw [e, (hin.commit_rdw ho hf).1 (by omega)] at hst
        cases hst
      exact ⟨e ▸ ((hin.commit_rdw ho hf).2 hle).2, hle⟩
    · have hf : v.fail = false := by
        cases hf : v.fail
        · rfl
        · rcases hmark.mp hf with hs' | ⟨x, hx, hxf⟩
          · exact absurd hs' hs
          · simp [hno x hx] at hxf
      exact e ▸ (hin.commit_rdw ho hf).1 hlo
    · have hfmt : w.program.format = .r4 := by rw [State.program, ho]; rfl
      obtain ⟨before, b, rfl, hlo⟩ := hin.low (fun hf => hs (hw.finish_iff.mp hf)) hfmt (hok hne) hv
      exact ⟨s.opening ++ before, b, by simp, hlo⟩
    · exact (hin.stood (hw.finish_iff.mpr hs)).2.trans hw.lo

end Sys2Proof.Machine
end

section
/-! PROOF. Waiting and ending (spec/41_sequencer.md R82, R84; 70_reset_and_hazards.md R193), the writers of the shadow registers
(10_state.md R24), and the ports (R20, R91, R92). -/

namespace Sys2Proof.Machine

/-! ### A transport that does not answer (R82) -/

/-- Past CHECK, a primitive that is not completed uses up its answer and nothing else. -/
theorem runSteps_stalled {s : State} (h : Underway s.program s) (hd : (s.answerAt 0).done = false) (n : Nat) :
    runSteps s.program (n + 1) s = s.consume := by
  obtain ⟨p, hp⟩ := Option.isSome_iff_exists.mp h.tReq
  exact runSteps_waiting hp hd n

/-- A request whose `Select` is not completed is rejected at CHECK, or stays at that `Select` (R82, R83). -/
theorem request_stalled {op : BitVec 3} {arg : Byte} {s : State} (hq : s.sq = .idle) (hd : (s.answerAt 0).done = false) :
    (∃ st, (requestProgram op).check s.cfg arg = .reject st ∧
      runRequest (requestProgram op) op arg s = .next ((s.accept op arg).respond st).release) ∨
    (∃ data, runRequest (requestProgram op) op arg s = .next (begun data (s.accept op arg)).consume) := by
  rw [runRequest, if_pos hq]
  rcases run_check (m := requestProgram op) (accept_sq s op arg) 6 with ⟨st, hc, e⟩ | ⟨data, -, e⟩
  · exact .inl ⟨st, hc, congrArg _ e⟩
  · refine .inr ⟨data, congrArg _ ?_⟩
    have hp : currentPrim (requestProgram op) (begun data (s.accept op arg)) = some .select := rfl
    exact e.trans (runSteps_waiting hp hd 5)

/-- Settles O37: a request by its CHECK; a busy block by the primitive it asks for. -/
theorem stalledPrimitiveHoldsTheBlock : Obligations.StalledPrimitiveHoldsTheBlock := by
  refine ⟨fun i s t hi hq hd hexec => ?_, fun s h hr hp hd => ?_⟩
  · obtain ⟨op, arg, hreq⟩ := (isRequest_iff i).mp hi
    rw [exec_request hreq] at hexec
    rcases request_stalled (op := op) (arg := arg) hq hd with ⟨st, hc, e⟩ | ⟨data, e⟩ <;> rw [e] at hexec <;> cases hexec
    · exact ⟨rfl, .inr ⟨rfl, reject_status (u := s.accept op arg) hc⟩⟩
    · exact ⟨rfl, .inl rfl⟩
  · have hb : s.sq ≠ .idle := fun e => by simp [e, Sq.pastCheck] at hp
    rw [step_busy hr hb, State.resume, runSteps_stalled (inv_underway h hp) hd 6, State.consume, List.drop_one]

/-! ### A transport that answers (R193) -/

/-- The primitives of a whole frame of a format (R194). -/
def frameAnswers : Format → Nat
  | .s1 => 3
  | .w2 => 4
  | .r4 => 6

theorem stepsLeft_le_frameAnswers (f : Format) (q : Sq) : stepsLeft f q ≤ frameAnswers f := by cases f <;> cases q <;> decide

theorem frameAnswers_le (f : Format) : frameAnswers f ≤ 6 := by cases f <;> decide

theorem State.Prompt.mono {s : State} {m n : Nat} (h : s.Prompt n) (hle : m ≤ n) : s.Prompt m :=
  fun k hk => h k (by omega)

/-- `t` is idle, some number of answers later, at most `n` (R193). -/
def EndedWithin (n : Nat) (s t : State) : Prop :=
  t.sq = .idle ∧ ∃ j, j ≤ n ∧ ∀ k, t.answerAt k = s.answerAt (k + j)

/-- A run from CHECK or from a step of the frame ends when its primitives complete, and uses at most the answers of a frame
(R194). -/
theorem runSteps_ends {op : BitVec 3} {s : State} (hq : s.sq = .check ∨ s.sq.inFormat (requestProgram op).format = true)
    (hp : s.Prompt (frameAnswers (requestProgram op).format)) :
    EndedWithin (frameAnswers (requestProgram op).format) s (runSteps (requestProgram op) maxSteps s) := by
  have frame : ∀ (n : Nat) (u : State), 6 ≤ n → u.sq.inFormat (requestProgram op).format = true →
      (∀ k, u.answerAt k = s.answerAt k) →
      EndedWithin (frameAnswers (requestProgram op).format) s (runSteps (requestProgram op) n u) := by
    intro n u hn hu ha
    have hle := stepsLeft_le_frameAnswers (requestProgram op).format u.sq
    obtain ⟨hidle, j, hj, hans⟩ := run_ends op n u hu ((hle.trans (frameAnswers_le _)).trans hn)
      fun k hk => by rw [ha]; exact hp k (by omega)
    exact ⟨hidle, j, hj.trans hle, fun k => (hans k).trans (ha _)⟩
  rcases hq with hq | hq
  · rcases run_check (m := requestProgram op) hq 6 with ⟨st, -, e⟩ | ⟨data, -, e⟩ <;>
      rw [show (maxSteps : Nat) = 6 + 1 from rfl, e]
    · exact ⟨rfl, 0, by omega, fun _ => rfl⟩
    · exact frame 6 (begun data s) (by omega) rfl fun _ => rfl
  · exact frame maxSteps s (by decide) hq fun _ => rfl

/-- Every request ends in one step from idle when the transport answers. -/
theorem request_ends {i : Instr} {op : BitVec 3} {arg : Byte} {s : State} (hi : hostRequest i = some (op, arg)) (hq : s.sq = .idle)
    (hp : s.Prompt (frameAnswers (requestProgram op).format)) :
    ∃ t, exec i s = .next t ∧ EndedWithin (frameAnswers (requestProgram op).format) s t :=
  ⟨_, (exec_request hi s).trans (if_pos hq), runSteps_ends (s := s.accept op arg) (.inl rfl) hp⟩

/-- So does every instruction: a frame from the bus port needs no answer. -/
theorem exec_ends (i : Instr) {s : State} (hq : s.sq = .idle) (hp : s.Prompt 6) : ∃ t, exec i s = .next t ∧ t.sq = .idle := by
  cases hi : hostRequest i with
  | none =>
    obtain ⟨f, reply, -, e⟩ := exec_frame hi s
    exact ⟨_, e.trans (runFrame_idle hq f reply), hq⟩
  | some q =>
    obtain ⟨t, hexec, hidle, -⟩ := request_ends hi hq (hp.mono (frameAnswers_le _))
    exact ⟨t, hexec, hidle⟩

/-- A busy block that keeps the invariant ends in its next run when the transport answers. -/
theorem resume_ends {s : State} (h : s.Inv) (hb : s.sq ≠ .idle) (hp : s.Prompt (frameAnswers s.program.format)) :
    EndedWithin (frameAnswers s.program.format) s s.resume := by
  refine runSteps_ends ?_ hp
  by_cases hpast : s.sq.pastCheck = true
  · exact .inr (h.in_frame hpast)
  · refine .inl ?_
    cases hq : s.sq <;> simp_all [Sq.pastCheck]

/-- A step that ends the operation of a busy block gives its response, the bracket closed. -/
theorem resume_response {s : State} (h : s.Inv) (hb : s.sq ≠ .idle) (hidle : s.resume.sq = .idle) :
    s.resume.sel = false ∧ s.resume.rspValid = true := by
  cases resume_stepOutcome ((Starts.busy hb).launched h) hb with
  | quiet hquiet => exact absurd hquiet.was_idle hb
  | rejected u st hu hq hr e =>
    obtain ⟨hs, -⟩ := hu.fresh (by rw [hq]; rfl)
    rw [e]
    exact ⟨hu.sel.trans hs, rfl⟩
  | selecting w hw hq hum hqt hsel hf htr => simp [hqt] at hidle
  | inside w bytes hw hp hin htr => have := hin.bracket.2; simp [hidle, Sq.inBracket] at this
  | committed w v bytes hw hp hin hv e hend htr => exact ⟨hend.sel, hend.rspValid⟩

/-- Settles O38. -/
theorem operationsEndWhenTheTransportAnswers : Obligations.OperationsEndWhenTheTransportAnswers := by
  refine ⟨fun i s hq hp => ?_, fun s h hr hb hp => ?_⟩
  · exact exec_ends i hq hp
  · have hidle := (resume_ends h hb (hp.mono (frameAnswers_le _))).1
    exact ⟨_, step_busy hr hb, hidle, resume_response h hb hidle⟩

/-! ### Who writes the shadow registers (R24) -/

/-- A sequencer step moves a shadow register only where it commits (R89). -/
theorem advance_shadow {m : MicroProgram} {s t : State} (ha : advance m s = .moved t ∨ advance m s = .halted t) :
    (t.w0 = s.w0 ∧ t.tc = s.tc) ∨ ∃ u, Unmoved s u ∧ t = commit m u := by
  rcases advance_cases m s with
    ⟨-, e⟩ | ⟨-, e⟩ | ⟨-, -, ⟨-, e⟩ | ⟨p, -, -, e⟩ | ⟨p, u, ok, b, -, -, hr, e⟩⟩ <;>
    simp only [e, reduceCtorEq, Advance.moved.injEq, Advance.halted.injEq, or_false, false_or] at ha <;> subst ha
  · exact .inl ⟨rfl, rfl⟩
  · refine .inl ?_
    cases hc : m.check s.cfg s.arg with
    | reject st => rw [runCheck_reject hc]; exact ⟨rfl, rfl⟩
    | proceed data =>
      cases data with
      | none => rw [runCheck_plain hc]; exact ⟨rfl, rfl⟩
      | some d => rw [runCheck_data hc]; exact ⟨rfl, rfl⟩
  · exact .inl ⟨rfl, rfl⟩
  · exact .inl ⟨rfl, rfl⟩
  · obtain ⟨hu, -⟩ := primitive_done hr
    obtain ⟨hl, -⟩ := latchByte_fields s.sq b u
    unfold afterPrim
    split_ifs
    · exact .inr ⟨u, hu, rfl⟩
    · exact .inl ⟨(hu.trans hl).w0, (hu.trans hl).tc⟩
    · exact .inl ⟨(hu.trans hl).w0, (hu.trans hl).tc⟩

/-- A commit writes `W[0]` for WRW, INC and DEC only, and `TC` for the terminal operations only (R24). -/
theorem commit_shadow (op : BitVec 3) (u : State) :
    (op ≠ 0#3 → op ≠ 2#3 → op ≠ 3#3 → (commit (requestProgram op) u).w0 = u.w0) ∧
    (terminalOp op = false → (commit (requestProgram op) u).tc = u.tc) := by
  have hrdw : (rdwCommit u).w0 = u.w0 ∧ (rdwCommit u).tc = u.tc := by unfold rdwCommit; split <;> exact ⟨rfl, rfl⟩
  have hinc : (incCommit u).tc = u.tc := by unfold incCommit; split <;> rfl
  have hdec : (decCommit u).tc = u.tc := by unfold decCommit; split <;> rfl
  cases hf : u.fail with
  | true => rw [commit_failed hf]; exact ⟨fun _ _ _ => rfl, fun _ => rfl⟩
  | false =>
    rw [commit_good hf]
    rcases opcode_cases op with rfl | rfl | rfl | rfl | rfl | rfl | rfl | rfl
    · exact ⟨fun h => absurd rfl h, fun _ => rfl⟩
    · exact ⟨fun _ _ _ => hrdw.1, fun _ => hrdw.2⟩
    · exact ⟨fun _ h => absurd rfl h, fun _ => hinc⟩
    · exact ⟨fun _ _ h => absurd rfl h, fun _ => hdec⟩
    · exact ⟨fun _ _ _ => rfl, fun h => absurd h (by decide)⟩
    · exact ⟨fun _ _ _ => rfl, fun h => absurd h (by decide)⟩
    · exact ⟨fun _ _ _ => rfl, fun h => absurd h (by decide)⟩
    · exact ⟨fun _ _ _ => rfl, fun _ => rfl⟩

/-- Any run of an operation keeps the shadow registers its commit does not write. -/
theorem runSteps_shadow (op : BitVec 3) (n : Nat) (s : State) :
    (op ≠ 0#3 → op ≠ 2#3 → op ≠ 3#3 → (runSteps (requestProgram op) n s).w0 = s.w0) ∧
    (terminalOp op = false → (runSteps (requestProgram op) n s).tc = s.tc) := by
  constructor
  · intro h0 h2 h3
    refine runSteps_induct (P := fun t => t.w0 = s.w0) (fun u t hu ha => ?_) n s rfl
    rcases advance_shadow ha with ⟨hw, -⟩ | ⟨v, hv, rfl⟩
    · exact hw.trans hu
    · exact ((commit_shadow op v).1 h0 h2 h3).trans (hv.w0.trans hu)
  · intro ht
    refine runSteps_induct (P := fun t => t.tc = s.tc) (fun u t hu ha => ?_) n s rfl
    rcases advance_shadow ha with ⟨-, htc⟩ | ⟨v, hv, rfl⟩
    · exact htc.trans hu
    · exact ((commit_shadow op v).2 ht).trans (hv.tc.trans hu)

/-- The opcodes of the writers of the two shadow registers (R24, R61). -/
theorem writers_opcode {i : Instr} {op : BitVec 3} {arg : Byte} (h : hostRequest i = some (op, arg)) :
    (writesWiper i = false → op ≠ 0#3 ∧ op ≠ 2#3 ∧ op ≠ 3#3) ∧ (writesTerminals i = false → terminalOp op = false) := by
  cases i <;> simp only [hostRequest, Option.some.injEq, Prod.mk.injEq, reduceCtorEq] at h <;> obtain ⟨rfl, -⟩ := h <;>
    exact ⟨by simp [writesWiper], by simp [writesTerminals, terminalOp]⟩

/-- No other instruction writes a shadow register (R24). -/
theorem exec_shadow {i : Instr} {s t : State} (h : exec i s = .next t) :
    (writesWiper i = false → t.w0 = s.w0) ∧ (writesTerminals i = false → t.tc = s.tc) := by
  by_cases hq : s.sq = .idle
  · cases hi : hostRequest i with
    | none =>
      obtain ⟨f, reply, -, e⟩ := exec_frame hi s
      rw [e, runFrame_idle hq] at h
      cases h
      exact ⟨fun _ => rfl, fun _ => rfl⟩
    | some q =>
      rw [exec_request hi, runRequest, if_pos hq] at h
      cases h
      obtain ⟨hw, ht⟩ := writers_opcode hi
      obtain ⟨hrun, hrunT⟩ := runSteps_shadow q.1 maxSteps (s.accept q.1 q.2)
      refine ⟨fun hn => ?_, fun hn => hrunT (ht hn)⟩
      obtain ⟨h0, h2, h3⟩ := hw hn
      exact hrun h0 h2 h3
  · rw [exec_busy i hq] at h
    cases h
    exact ⟨fun _ => rfl, fun _ => rfl⟩

/-- `t` is what the end of an operation with status OK leaves in the shadow registers, `s` being before it (R100, R120, R121,
R130). -/
def ShadowWritten (s t : State) : Prop :=
  (t.op = 0#3 → t.w0 = t.d ∧ t.w0.toNat = min t.arg.toNat 128) ∧
  (t.op = 2#3 → s.w0.toNat < 128 ∧ t.w0 = s.w0 + 1#8) ∧
  (t.op = 3#3 → 0 < s.w0.toNat ∧ t.w0 = s.w0 - 1#8) ∧
  (t.op = 4#3 → t.tc = some ⟨t.arg.getLsbD 3, t.arg.getLsbD 2, t.arg.getLsbD 1⟩) ∧
  (t.op = 5#3 → t.tc = some ⟨true, true, true⟩) ∧
  (t.op = 6#3 → t.tc = some ⟨false, false, false⟩)

/-- A shadow byte in range that is no bound lies strictly inside it. -/
theorem byte_strict {v : Byte} (h : v ≤ wiperMax) :
    (v ≠ wiperMax → v.toNat < 128) ∧ (v ≠ wiperMin → 0 < v.toNat) := by
  revert v; decide

/-- A commit with status OK writes the requested value, into the registers of its own operation. -/
theorem committed_ok {s w v t : State} {bytes : List Event} (hw : Launched s w) (hp : w.sq.pastCheck = true)
    (hin : Inside w.program w v bytes) (e : t = commit w.program v.closed) (hend : Ended w v t) (hok : t.status = .ok) :
    ShadowWritten s t ∧ (t.w0 ≠ s.w0 → t.op = 0#3 ∨ t.op = 2#3 ∨ t.op = 3#3) ∧ (t.tc ≠ s.tc → terminalOp t.op = true) := by
  have hck := hw.inv.checked hp
  have hf : v.fail = false := by simpa using hend.failed.not.mp (by simp [hok])
  have hcases := hin.commit_cases hck hf
  simp only [← e] at hcases
  have hle := byte_strict hw.inv.w0_le
  unfold ShadowWritten
  rw [hend.op, hend.arg, hend.d, ← hw.w0, ← hw.tc]
  rcases hcases with ⟨ho, -, hw0, htc⟩ | ⟨ho, hw0, htc, -⟩ | ⟨ho, htc, ⟨hst, -⟩ | ⟨-, hne, hw0⟩⟩ |
    ⟨ho, htc, ⟨hst, -⟩ | ⟨-, hne, hw0⟩⟩ | ⟨ho, -, -, hw0, tm, htc, -, h4, h5, h6⟩
  · have hd := checked_wrw hck ho
    have hmin : w.d.toNat = min w.arg.toNat 128 := by rw [hd, saturate_toNat]
    simp [ho, hw0, htc, hmin]
  · simp [ho, hw0, htc]
  · simp [hok] at hst
  · simp [ho, hw0, htc, hle.1 hne]
  · simp [hok] at hst
  · simp [ho, hw0, htc, hle.2 hne]
  · have hop : w.op ≠ 0#3 ∧ w.op ≠ 2#3 ∧ w.op ≠ 3#3 := by
      revert ho; generalize w.op = op; revert op; decide
    obtain ⟨n0, n2, n3⟩ := hop
    exact ⟨⟨fun h => absurd h n0, fun h => absurd h n2, fun h => absurd h n3, fun h => by rw [htc, h4 h]; rfl,
      fun h => by rw [htc, h5 h]; rfl, fun h => by rw [htc, h6 h]; rfl⟩, fun h => absurd hw0 h, fun _ => ho⟩

/-- Settles O41: nothing but a commit with status OK moves a shadow register. -/
theorem shadowRegistersHaveTheirOwnWriters : Obligations.ShadowRegistersHaveTheirOwnWriters := by
  refine ⟨fun i s t => exec_shadow, fun s t h hr hstep => ?_⟩
  cases step_outcome h hstep with
  | quiet hquiet =>
    obtain ⟨hw0, htc⟩ := hquiet.shadow hr
    exact ⟨fun hn => absurd hw0 hn, fun hn => absurd htc hn, fun hb => absurd hquiet.was_idle hb, by simp [hquiet.rspValid]⟩
  | rejected u st hu hq hrej e =>
    subst e
    refine ⟨fun hn => absurd hu.w0 hn, fun hn => absurd hu.tc hn, hu.latched, fun _ hok => ?_⟩
    rcases reject_status hrej with rfl | rfl <;> cases hok
  | selecting w hw hq hum hqt hsel hf htr =>
    exact ⟨fun hn => absurd (hum.w0.trans hw.w0) hn, fun hn => absurd (hum.tc.trans hw.tc) hn,
      fun hb => by rw [hum.op, hum.arg]; exact hw.latched hb, by simp [hw.no_response hum]⟩
  | inside w bytes hw hp hin htr =>
    have hum := hin.unmoved
    exact ⟨fun hn => absurd (hum.w0.trans hw.w0) hn, fun hn => absurd (hum.tc.trans hw.tc) hn,
      fun hb => by rw [hum.op, hum.arg]; exact hw.latched hb, by simp [hw.no_response hum]⟩
  | committed w v bytes hw hp hin hv e hend htr =>
    have hok : t.w0 ≠ s.w0 ∨ t.tc ≠ s.tc → t.status = .ok := fun hn => by
      by_contra hst
      obtain ⟨hw0, htc⟩ := committed_error_shadow hin (hw.inv.checked hp) (e ▸ hst)
      rw [e, hw0, htc, hw.w0, hw.tc] at hn
      simp at hn
    refine ⟨fun hn => ?_, fun hn => ?_, fun hb => by rw [hend.op, hend.arg]; exact hw.latched hb, fun _ hst => ?_⟩
    · have hst := hok (.inl hn)
      exact ⟨hend.rspValid, hst, (committed_ok hw hp hin e hend hst).2.1 hn⟩
    · have hst := hok (.inr hn)
      exact ⟨hend.rspValid, hst, (committed_ok hw hp hin e hend hst).2.2 hn⟩
    · exact (committed_ok hw hp hin e hend hst).1

/-! ### The diagnostics port (R20, R92) -/

/-- After a terminal operation with status OK, `TC` holds the terminals of the data byte it sent, in variant B (R130). -/
theorem terminal_ok {s t : State} (h : s.Inv) (hstep : step s = .next t) (hrsp : t.rspValid = true) (hok : t.status = .ok)
    (ho : terminalOp t.op = true) : t.cfg.variant = .B ∧ ∃ tm, t.tc = some tm ∧ t.d = tconByte tm := by
  cases step_outcome h hstep with
  | quiet hquiet => simp [hquiet.rspValid] at hrsp
  | rejected u st hu hq hrej e =>
    subst e
    rcases reject_status hrej with rfl | rfl <;> cases hok
  | selecting w hw hq hum hqt hsel hf htr => simp [hw.no_response hum] at hrsp
  | inside w bytes hw hp hin htr => simp [hw.no_response hin.unmoved] at hrsp
  | committed w v bytes hw hp hin hv e hend htr =>
    have hf : v.fail = false := by simpa using hend.failed.not.mp (by simp [hok])
    have hcases := hin.commit_cases (hw.inv.checked hp) hf
    simp only [← e] at hcases
    rw [hend.op] at ho
    rw [hend.cfg, hend.d]
    rcases hcases with ⟨h0, -⟩ | ⟨h1, -⟩ | ⟨h2, -⟩ | ⟨h3, -⟩ | ⟨-, hB, -, -, tm, htc, hd, -⟩
    · simp [h0, terminalOp] at ho
    · simp [h1, terminalOp] at ho
    · simp [h2, terminalOp] at ho
    · simp [h3, terminalOp] at ho
    · exact ⟨hB, tm, htc, hd⟩

/-- In variant B the port reports whether `TC` holds a value, and as which byte (R20). -/
theorem dbg_strict {s : State} (hB : s.cfg.variant = .B) :
    s.readTerminals = .next s.tc ∧ s.dbgTcValid = .next s.tc.isSome ∧ s.dbgTc = .next (s.tc.map tconByte) := by
  simp [State.dbgTcValid, State.dbgTc, andThen, State.readTerminals, hB]

/-- In variant A every read of `TC` is an error (R13). -/
theorem dbg_lenient {s : State} (hA : s.cfg.variant = .A) :
    s.readTerminals = .fault .noTerminalRegister ∧ s.dbgTcValid = .fault .noTerminalRegister ∧
      s.dbgTc = .fault .noTerminalRegister := by
  simp [State.dbgTcValid, State.dbgTc, andThen, State.readTerminals, hA]

/-- Settles O44. -/
theorem diagnosticsPortReportsTheRegisters : Obligations.DiagnosticsPortReportsTheRegisters := by
  refine ⟨fun s => ⟨rfl, rfl, dbg_lenient, fun hB htc => ?_, fun hB a w b htc => ?_⟩, fun s t h hstep hrsp hok ho => ?_,
    fun _ => rfl⟩
  · have hport := dbg_strict hB
    rwa [htc] at hport
  · have hport := dbg_strict hB
    rw [htc, Option.map_some, tconByte_eq_append] at hport
    exact hport
  · obtain ⟨hB, tm, htc, hd⟩ := terminal_ok h hstep hrsp hok ho
    obtain ⟨-, hvalid, hbyte⟩ := dbg_strict hB
    rw [htc] at hvalid hbyte
    exact ⟨hvalid, hbyte.trans (by rw [hd]; rfl)⟩

/-! ### The host port (R92) -/

/-- The numbers of the statuses: no two alike, none above 101 (R62). -/
theorem status_code (st : Status) :
    st.code.toNat ≤ 5 ∧ (st.code = 0b010#3 ↔ st = .rangeViolation) ∧ (st.code = 0b011#3 ↔ st = .integrityViolation) ∧
    (st.code = 0b100#3 ↔ st = .alreadyAtBound) ∧ (st.code = 0b101#3 ↔ st = .unsupported) := by
  cases st <;> decide

/-- The statuses a step that gives a response can report, by operation (R160). -/
theorem response_status {s t : State} (h : s.Inv) (hstep : step s = .next t) (hrsp : t.rspValid = true) :
    t.sq = .idle ∧ (t.status = .rangeViolation → t.op = 0#3 ∧ t.cfg.variant = .B) ∧
    (t.status = .integrityViolation → t.op = 1#3) ∧ (t.status = .alreadyAtBound → t.op = 2#3 ∨ t.op = 3#3) ∧
    (t.status = .unsupported ↔ t.op = 7#3 ∨ terminalOp t.op = true ∧ t.cfg.variant = .A) := by
  cases step_outcome h hstep with
  | quiet hquiet => simp [hquiet.rspValid] at hrsp
  | rejected u st hu hq hrej e =>
    subst e
    refine ⟨rfl, ?_⟩
    rcases check_reject hrej with ⟨ho, hB, -, rfl⟩ | ⟨hor, rfl⟩
    · simp [ho, hB]
    · simpa using hor.symm
  | selecting w hw hq hum hqt hsel hf htr => simp [hw.no_response hum] at hrsp
  | inside w bytes hw hp hin htr => simp [hw.no_response hin.unmoved] at hrsp
  | committed w v bytes hw hp hin hv e hend htr =>
    have hck := hw.inv.checked hp
    obtain ⟨hne1, hne2⟩ := committed_status hin hck
    rw [← e] at hne1 hne2
    have hvalue := fun hne => committed_value_errors hin hck (by simpa using hend.failed.not.mp hne)
    rw [← e] at hvalue
    refine ⟨hend.sq, fun hst => absurd hst hne1, fun hst => ?_, fun hst => ?_, fun hst => absurd hst hne2, fun hor => ?_⟩
    · rw [hend.op]
      exact ((hvalue (by simp [hst])).1 hst).1
    · rw [hend.op]
      exact ((hvalue (by simp [hst])).2 hst).imp And.left And.left
    · rw [hend.op, hend.cfg] at hor
      rcases hor with h7 | ⟨ho, hA⟩
      · exact absurd h7 (checked_reserved hck)
      · rw [checked_variant hck ho] at hA; cases hA

/-- A request waiting at the port shows on the request signals (R92). -/
theorem request_waiting {s : State} {op : BitVec 3} {arg : Byte} {rest : List PortWord}
    (hp : s.pending = requestWord op arg :: rest) : s.request = some (op, arg) := by
  simp [State.request, hp, requestWord, request_highByte]

/-- A frame of the bus is no request (R92). -/
theorem request_frame {s : State} {bytes : List Byte} {rest : List PortWord} (hp : s.pending = ⟨.bus, bytes⟩ :: rest) :
    s.request = none := by
  simp [State.request, hp]

/-- An idle block takes the request at its port, latched as it stands there (R83). -/
theorem step_request {s : State} {op : BitVec 3} {arg : Byte} {rest : List PortWord} (hr : s.rst = false) (hq : s.sq = .idle)
    (hp : s.pending = requestWord op arg :: rest) : ∃ t, step s = .next t ∧ t.op = op ∧ t.arg = arg ∧ t.pending = rest := by
  have hreq : ∀ op arg, hostRequest (decodeRequest op arg) = some (op, arg) := by
    intro op arg
    rcases opcode_cases op with rfl | rfl | rfl | rfl | rfl | rfl | rfl | rfl
    case inr.inr.inr.inr.inl => exact congrArg (fun x => some (4#3, x)) (wtcArg_fields arg)
    all_goals rfl
  rw [step_decoded hr hq hp (decode_requestWord s.cfg op arg), exec_request (hreq op arg), runRequest,
    if_pos (show (s.take rest).sq = .idle from hq)]
  have hkept := kept_runSteps op maxSteps ((s.take rest).accept op arg)
  exact ⟨_, rfl, hkept.op, hkept.arg, hkept.pending⟩

/-- Settles O45. -/
theorem hostPortSignalsShowTheBlock : Obligations.HostPortSignalsShowTheBlock := by
  refine ⟨⟨rfl, rfl, rfl, rfl, rfl, rfl⟩, fun s => ⟨rfl, rfl, by simp [State.reqReady]⟩, fun s op arg rest hp => ?_,
    fun s bytes rest hp => ?_, fun s t h hstep hrsp => ?_⟩
  · simp only [State.reqValid, State.reqOp, State.reqArg, request_waiting hp]
    exact ⟨rfl, rfl, rfl, fun hr hready => step_request hr (by simpa [State.reqReady] using hready) hp⟩
  · simp [State.reqValid, State.reqOp, State.reqArg, request_frame hp]
  · obtain ⟨hidle, hrange, hintegrity, hbound, hunsupported⟩ := response_status h hstep hrsp
    obtain ⟨hle, h2, h3, h4, h5⟩ := status_code t.status
    exact ⟨by simp [State.reqReady, hidle], hle, fun e => hrange (h2.mp e), fun e => hintegrity (h3.mp e),
      fun e => hbound (h4.mp e), h5.trans hunsupported⟩

/-! ### The transport port (R91) -/

/-- The frame formats by opcode (R52, R90): RDW is the one Read frame. -/
theorem format_r4_iff (op : BitVec 3) : (requestProgram op).format = .r4 ↔ op = 1#3 := by revert op; decide

/-- What a block asks for at the second byte of its frame: the dummy byte of RDW, else the data byte (R52). -/
theorem bytePrim_b1 {s : State} (hf : s.program.format ≠ .s1) :
    bytePrim s.program s .b1 = some (.writeByte (if s.op = 1#3 then s.cfg.dummyByte else s.d)) := by
  have hiff := format_r4_iff s.op
  rw [← State.program] at hiff
  cases hfmt : s.program.format <;> simp_all [bytePrim]

/-- Settles O46: by the step the block stands at. -/
theorem transportPortSignalsShowThePrimitive : Obligations.TransportPortSignalsShowThePrimitive := by
  intro s h
  have hbyte : s.sq.inBracket = true → s.sq ≠ .finish → s.asking = bytePrim s.program s s.sq := by
    unfold State.asking currentPrim
    cases s.sq <;> simp [Sq.inBracket]
  have hread : s.sq = .b2 ∨ s.sq = .b3 → s.op = 1#3 ∧ s.asking = some .readByte := by
    rintro (hq | hq) <;>
    · have hform := h.in_frame (by rw [hq]; rfl)
      have hf : s.program.format = .r4 := by simpa [hq, Sq.inFormat] using hform
      exact ⟨(format_r4_iff s.op).mp hf, by rw [hbyte (by rw [hq]; rfl) (by simp [hq]), hq]; simp [bytePrim, hf]⟩
  have hselect : s.sq = .select → s.asking = some .select := fun hq => by simp [State.asking, currentPrim, hq]
  have hfinish : s.sq = .finish → s.asking = some .deselect := fun hq => by simp [State.asking, currentPrim, hq]
  have hnothing : s.sq = .idle ∨ s.sq = .check → s.asking = none := by
    rintro (hq | hq) <;> simp [State.asking, currentPrim, hq]
  refine ⟨?_, fun hq => by rw [hselect hq]; rfl, fun hq => by rw [hfinish hq]; rfl, fun hq => ?_, fun hq => ?_,
    fun hq => ⟨(hread hq).1, by rw [(hread hq).2]; rfl⟩, fun h0 h1 => ?_⟩
  · cases hp : s.sq.pastCheck with
    | true => exact (inv_underway h hp).tReq
    | false =>
      have hq : s.sq = .idle ∨ s.sq = .check := by cases hq : s.sq <;> simp_all [Sq.pastCheck]
      rw [State.tReq, hnothing hq]; rfl
  · have hop : s.op ≠ 7#3 := checked_reserved (h.checked (by rw [hq]; rfl))
    rw [hbyte (by rw [hq]; rfl) (by simp [hq]), hq, operationByte_eq s.cfg hop]
    exact ⟨rfl, rfl⟩
  · have hform := h.in_frame (by rw [hq]; rfl)
    have hf : s.program.format ≠ .s1 := by simpa [hq, Sq.inFormat] using hform
    rw [hbyte (by rw [hq]; rfl) (by simp [hq]), hq, bytePrim_b1 hf]
    exact ⟨rfl, rfl⟩
  · have hcases : (s.sq = .idle ∨ s.sq = .check) ∨ s.sq = .select ∨ s.sq = .finish ∨ s.sq = .b2 ∨ s.sq = .b3 := by
      cases hq : s.sq <;> simp_all
    rcases hcases with hq | hq | hq | hq
    · rw [hnothing hq]; rfl
    · rw [hselect hq]; rfl
    · rw [hfinish hq]; rfl
    · rw [(hread hq).2]; rfl

end Sys2Proof.Machine
end

section
/-! PROOF. The operations one by one, from an idle block (spec/42_wiper_write.md to 45_terminal_connection.md; 30_encoding.md R60,
R64), and the frames from the bus port (20_memory.md R44 to R47). -/

namespace Sys2Proof.Machine

/-! ### Rejections at CHECK -/

/-- A rejected request leaves what R83 says. -/
theorem exec_rejected {i : Instr} {op : BitVec 3} {arg : Byte} {s : State} {st : Status} (hi : hostRequest i = some (op, arg))
    (hq : s.sq = .idle) (hc : (requestProgram op).check s.cfg arg = .reject st) : exec i s = .next (s.rejected op arg st) :=
  (exec_request hi s).trans (request_rejected hq hc)

/-- CHECK of WRW rejects an operand above 128 in the strict variant (R100). -/
theorem wrwCheck_reject {c : Config} {v : Byte} (hB : c.variant = .B) (hv : 128 < v.toNat) :
    wrwCheck c v = .reject .rangeViolation :=
  if_pos ⟨hB, (byte_lt_iff v).mpr hv⟩

/-- CHECK of WRW gives `min(v, 128)` in range, and in the lenient variant (R55, R100). -/
theorem wrwCheck_proceed {c : Config} {v : Byte} (h : c.variant = .B → v.toNat ≤ 128) :
    wrwCheck c v = .proceed (some (saturate v)) :=
  if_neg fun ⟨hB, hv⟩ => Nat.not_lt.mpr (h hB) hv

/-- CHECK of a terminal operation rejects it in the lenient variant (R130). -/
theorem terminalCheck_lenient {c : Config} (hA : c.variant = .A) (t : TermState) : terminalCheck c t = .reject .unsupported := by
  simp [terminalCheck, hA]

/-- Settles O20. -/
theorem wrwOutOfRangeIsRejectedByTheStrictVariant : Obligations.WrwOutOfRangeIsRejectedByTheStrictVariant :=
  fun _ _ hq hB hv => exec_rejected rfl hq (wrwCheck_reject hB hv)

/-- Settles O28. -/
theorem reservedRequestCompletes : Obligations.ReservedRequestCompletes :=
  fun _ _ hq => exec_rejected rfl hq rfl

/-- Settles O29. -/
theorem terminalOperationsAreUnsupportedInTheLenientVariant :
    Obligations.TerminalOperationsAreUnsupportedInTheLenientVariant :=
  fun _ _ _ _ _ _ _ hq hA => ⟨exec_rejected rfl hq (terminalCheck_lenient hA _),
    exec_rejected rfl hq (terminalCheck_lenient hA _), exec_rejected rfl hq (terminalCheck_lenient hA _)⟩

/-! ### Write requests that go through -/

/-- The command byte with 00 in its low bits is the one the encoder gives (R50, R57). -/
theorem cmdByte_eq (addr : RegAddr) (code : BitVec 2) : cmdByte addr code = busByte addr code 0#2 := (busByte_eq ..).symm

/-- Settles O19: the frame of a Write request with data byte `min(v, 128)`, then its commit. -/
theorem wrwCompletes : Obligations.WrwCompletes := by
  intro v s hc hq hv hl
  refine ⟨saturate v, _, saturate_toNat v, storedAt_of (stored_write hc s.peer s.cfg.addrWiper0 0#2 (saturate v)), ?_⟩
  rw [exec_request (i := .wrw v) rfl, request_w2 (op := 0#3) hq rfl (wrwCheck_proceed hv) hl, cmdByte_eq]
  rfl

/-- A terminal request in the strict variant that goes through, its CHECK and its commit being those of the terminals `t`. -/
theorem terminalWritten_request {op : BitVec 3} {arg : Byte} {s : State} {t : TermState} (hc : s.cfg.wf) (hq : s.sq = .idle)
    (hl : s.Lucky 4) (hf : (requestProgram op).format = .w2)
    (hcmd : (requestProgram op).cmd s.cfg = busByte s.cfg.addrTcon s.cfg.cmdWrite 0#2)
    (hcheck : (requestProgram op).check s.cfg arg = .proceed (some (tconByte t)))
    (hcommit : ∀ u : State, u.arg = arg → (requestProgram op).commit u = terminalCommit t u) :
    TerminalWritten s op arg t (tconByte t) (runRequest (requestProgram op) op arg s) := by
  refine ⟨_, storedAt_of (stored_write hc s.peer s.cfg.addrTcon 0#2 (tconByte t)), ?_⟩
  rw [request_w2 hq hf hcheck hl, hcommit _ rfl, hcmd, cmdByte_eq]
  rfl

/-- Settles O24. -/
theorem wtcCompletes : Obligations.WtcCompletes := by
  intro a w b xh xl s hc hq hB hl
  rw [← tconByte_eq_append, exec_request (i := .wtc a w b xh xl) rfl]
  refine terminalWritten_request (op := 4#3) hc hq hl rfl rfl (wtcProgram_check hB a w b xh xl) fun u hu => ?_
  have harg : argTerminals u.arg = ⟨a, w, b⟩ := hu ▸ argTerminals_wtcArg a w b xh xl
  exact congrArg (terminalCommit · u) harg

/-- Settles O25: 0xFF is the byte of three connected terminals. -/
theorem entCompletes : Obligations.EntCompletes := fun _ _ hc hq hB hl =>
  terminalWritten_request (op := 5#3) hc hq hl rfl rfl (terminalCheck_strict hB allConnected) fun _ _ => rfl

/-- Settles O26: 0xF1 is the byte of three disconnected terminals. -/
theorem distCompletes : Obligations.DistCompletes := fun _ _ hc hq hB hl =>
  terminalWritten_request (op := 6#3) hc hq hl rfl rfl (terminalCheck_strict hB allDisconnected) fun _ _ => rfl

/-! ### The other wiper operations that go through -/

section
variable {u : State}

theorem rdwCommit_in_range (h : u.lo.toNat ≤ 128) : rdwCommit u = u.respondValue u.lo := if_neg (Nat.not_lt.mpr h)
theorem rdwCommit_out_of_range (h : ¬ u.lo.toNat ≤ 128) : rdwCommit u = u.respond .integrityViolation :=
  if_pos (Nat.not_le.mp h)
theorem incCommit_at_bound (h : u.w0 = 128#8) : incCommit u = u.respond .alreadyAtBound := if_pos h
theorem incCommit_below (h : u.w0 ≠ 128#8) : incCommit u = (u.setW0 (u.w0 + 1#8)).respond .ok := if_neg h
theorem decCommit_at_bound (h : u.w0 = 0#8) : decCommit u = u.respond .alreadyAtBound := if_pos h
theorem decCommit_above (h : u.w0 ≠ 0#8) : decCommit u = (u.setW0 (u.w0 - 1#8)).respond .ok := if_neg h

end

/-- The state at the commit of an RDW that goes through (R110). -/
def State.readBack (x : Byte) (s : State) : State :=
  { (s.accept 1#3 x).framed 6
      (readEvents s.cfg (rdwByte s.cfg) (s.highByte (rdwByte s.cfg)) (s.lowByte (rdwByte s.cfg)))
      (s.peerAfter (Peer.readFrame s.cfg (rdwByte s.cfg))) with
    hi := s.highByte (rdwByte s.cfg), lo := s.lowByte (rdwByte s.cfg) }

/-- The state at the commit of a one-byte operation that goes through (R120, R121). -/
def State.stepped (op : BitVec 3) (x cmd : Byte) (s : State) : State :=
  (s.accept op x).framed 3 [.selected, .wrote cmd true, .deselected] (s.peerAfter (Peer.stepFrame s.cfg cmd))

section
variable {x : Byte} {s : State} (hq : s.sq = .idle)
include hq

theorem exec_rdw (hl : s.Lucky 6) : exec (.rdw x) s = .next (rdwCommit (s.readBack x)).release :=
  request_r4 (op := 1#3) hq rfl rfl hl

theorem exec_inc (hl : s.Lucky 3) : exec (.inc x) s = .next (incCommit (s.stepped 2#3 x (incByte s.cfg))).release :=
  request_s1 (op := 2#3) hq rfl rfl hl

theorem exec_dec (hl : s.Lucky 3) : exec (.dec x) s = .next (decCommit (s.stepped 3#3 x (decByte s.cfg))).release :=
  request_s1 (op := 3#3) hq rfl rfl hl

end

/-- Settles O21: by whether the low byte is in range (R110). -/
theorem rdwCompletes : Obligations.RdwCompletes := by
  intro x s hc hq hl
  refine ⟨_, _, _, storedNothing_read hc s.cfg.addrWiper0 0#2, response_read hc s.cfg.addrWiper0 0#2, ?_⟩
  rw [exec_rdw hq hl, cmdByte_eq]
  by_cases hlo : (s.lowByte (busByte s.cfg.addrWiper0 s.cfg.cmdRead 0#2)).toNat ≤ 128
  · rw [rdwCommit_in_range (u := s.readBack x) hlo, if_pos hlo, if_pos hlo, if_pos hlo]
    rfl
  · rw [rdwCommit_out_of_range (u := s.readBack x) hlo, if_neg hlo, if_neg hlo, if_neg hlo]
    rfl

/-- Settles O22: by whether the shadow is at its bound (R120). -/
theorem incCompletes : Obligations.IncCompletes := by
  intro x s hc hq hl
  refine ⟨_, storedAt_of (stored_increment s.cfg s.peer s.cfg.addrWiper0 0#2), ?_⟩
  rw [exec_inc hq hl, cmdByte_eq]
  by_cases hw : s.w0 = 128#8
  · rw [incCommit_at_bound (u := s.stepped _ _ _) hw, if_pos hw, if_pos hw]
    rfl
  · rw [incCommit_below (u := s.stepped _ _ _) hw, if_neg hw, if_neg hw]
    rfl

/-- Settles O23: by whether the shadow is at its bound (R121). -/
theorem decCompletes : Obligations.DecCompletes := by
  intro x s hc hq hl
  refine ⟨_, storedAt_of (stored_decrement hc s.peer s.cfg.addrWiper0 0#2), ?_⟩
  rw [exec_dec hq hl, cmdByte_eq]
  by_cases hw : s.w0 = 0#8
  · rw [decCommit_at_bound (u := s.stepped _ _ _) hw, if_pos hw, if_pos hw]
    rfl
  · rw [decCommit_above (u := s.stepped _ _ _) hw, if_neg hw, if_neg hw]
    rfl

/-! ### Frames from the bus port (log entries 11 and 12) -/

section
variable {s : State} (hq : s.sq = .idle) (hc : s.cfg.wf) (addr : RegAddr) (dx : BitVec 2)
include hq

/-- A frame that reaches an idle block's bus stores what the peer takes from it. -/
theorem frameStored_run {v : Byte} {f : Peer → Peer} (h : s.peer.Stored addr v (f s.peer)) (hp : (f s.peer).psel = false) :
    FrameStored s addr v (runFrame f [] s) :=
  ⟨_, h, hp, runFrame_idle hq f []⟩

theorem frameStored_increment :
    FrameStored s addr (deviceUp (s.peer.get addr))
      (runFrame (Peer.stepFrame s.cfg (busByte addr s.cfg.cmdIncrement dx)) [] s) :=
  frameStored_run hq addr (stored_increment s.cfg s.peer addr dx) rfl

include hc

theorem frameStored_write (data : Byte) :
    FrameStored s addr data (runFrame (Peer.writeFrame s.cfg (busByte addr s.cfg.cmdWrite dx) data) [] s) :=
  frameStored_run hq addr (stored_write hc s.peer addr dx data) rfl

theorem frameStored_decrement :
    FrameStored s addr (deviceDown (s.peer.get addr))
      (runFrame (Peer.stepFrame s.cfg (busByte addr s.cfg.cmdDecrement dx)) [] s) :=
  frameStored_run hq addr (stored_decrement hc s.peer addr dx) rfl

/-- A Read frame is answered by the peer with zero and the register (R47). -/
theorem frameAnswered_read :
    FrameAnswered s [0x00#8, s.peer.get addr]
      (runFrame (Peer.readFrame s.cfg (busByte addr s.cfg.cmdRead dx)) (s.peer.response s.cfg (busByte addr s.cfg.cmdRead dx)) s) :=
  ⟨_, peer_read_frame s.peer hc addr dx, rfl, by rw [runFrame_idle hq, peer_read_response s.peer hc addr dx]⟩

end

/-- Settles O30: the specific rows are the generic one at the registers of R54. -/
theorem busWriteFramesComplete : Obligations.BusWriteFramesComplete := fun addr dx data _ hc hq =>
  ⟨frameStored_write hq hc addr dx data, frameStored_write hq hc _ 0#2 data, frameStored_write hq hc _ 0#2 data⟩

/-- Settles O31. -/
theorem busStepFramesComplete : Obligations.BusStepFramesComplete := fun addr dx _ hc hq =>
  ⟨frameStored_increment hq addr dx, frameStored_decrement hq hc addr dx, frameStored_increment hq _ 0#2,
    frameStored_decrement hq hc _ 0#2⟩

/-- Settles O32. -/
theorem busReadFramesComplete : Obligations.BusReadFramesComplete := fun addr dx _ hc hq =>
  ⟨frameAnswered_read hq hc addr dx, frameAnswered_read hq hc _ 0#2⟩

/-! ### ENT and DIST as WTC (R60) -/

/-- The block with another latched request. -/
def State.relatch (op : BitVec 3) (arg : Byte) (s : State) : State := { s with op := op, arg := arg }

/-- `m'`, with the request `op arg` latched, does what `m` does: the same CHECK, frame and commit (R60). -/
structure ActsAs (m m' : MicroProgram) (op : BitVec 3) (arg : Byte) : Prop where
  cmd    : m'.cmd = m.cmd
  format : m'.format = m.format
  check  : ∀ c a, m'.check c arg = m.check c a
  commit : ∀ s : State, m'.commit (s.relatch op arg) = (m.commit s).relatch op arg

section
variable {s : State} {f : Peer → Peer}

theorem onPeer_free (h : s.link = .free) : s.onPeer f = s := by simp [State.onPeer, h]

theorem onPeer_reference (h : s.link = .reference) : s.onPeer f = { s with peer := f s.peer } := by simp [State.onPeer, h]

end

section
variable {m : MicroProgram} {s : State}

/-- The run passes over a step the frame does not have (R15). -/
theorem runSteps_pass (hi : s.sq ≠ .idle) (hc : s.sq ≠ .check) (hp : currentPrim m s = none) (n : Nat) :
    runSteps m (n + 1) s = runSteps m n (s.goto (nextSq m.format s.sq)) := by
  rcases advance_cases m s with ⟨h, -⟩ | ⟨h, -⟩ | ⟨-, -, ⟨-, e⟩ | ⟨p, h, -⟩ | ⟨p, t, ok, b, h, -⟩⟩
  · exact absurd h hi
  · exact absurd h hc
  · simp [runSteps, e]
  · simp [hp] at h
  · simp [hp] at h

/-- The run goes on after a primitive that has completed (R84, R85). -/
theorem runSteps_done {p : Prim} {t : State} {ok : Bool} {b : Byte} (hp : currentPrim m s = some p)
    (hr : primitive p s = .done t ok b) (n : Nat) : runSteps m (n + 1) s = runSteps m n (afterPrim m s.sq ok b t) := by
  rcases advance_cases m s with ⟨h, -⟩ | ⟨h, -⟩ | ⟨-, -, ⟨h, -⟩ | ⟨p', h, hd, -⟩ | ⟨p', t', ok', b', h, -, hr', e⟩⟩
  · simp [currentPrim, h] at hp
  · simp [currentPrim, h] at hp
  · simp [hp] at h
  · simp [primitive, hd] at hr
  · cases hp.symm.trans h
    cases hr.symm.trans hr'
    simp [runSteps, e]

end

section
variable {m m' : MicroProgram} {op : BitVec 3} {arg : Byte}

theorem onPeer_relatch (f : Peer → Peer) (s : State) : (s.relatch op arg).onPeer f = (s.onPeer f).relatch op arg := by
  cases hl : s.link with
  | free => rw [onPeer_free (s := s.relatch op arg) hl, onPeer_free hl]
  | reference => rw [onPeer_reference (s := s.relatch op arg) hl, onPeer_reference hl]; rfl

theorem opened_relatch (s : State) : (s.relatch op arg).opened = s.opened.relatch op arg :=
  congrArg (State.log .selected) (onPeer_relatch Peer.select { s.consume with sel := true })

theorem closed_relatch (s : State) : (s.relatch op arg).closed = s.closed.relatch op arg :=
  congrArg (State.log .deselected) (onPeer_relatch Peer.deselect { s.consume with sel := false })

theorem sent_relatch (b : Byte) (s : State) : (s.relatch op arg).sent b = (s.sent b).relatch op arg := by
  show State.log _ (if (s.answerAt 0).ok then (s.consume.relatch op arg).onPeer _ else s.consume.relatch op arg) = _
  rw [onPeer_relatch, State.sent]
  split <;> rfl

theorem gotten_relatch (s : State) : (s.relatch op arg).gotten = s.gotten.relatch op arg := by
  show State.log _ (if (s.answerAt 0).ok then (s.consume.relatch op arg).onPeer _ else s.consume.relatch op arg) = _
  rw [onPeer_relatch, State.gotten]
  split <;> rfl

/-- A primitive does not look at the latched request (R80). -/
theorem primitive_relatch {p : Prim} {s t : State} {ok : Bool} {b : Byte} (h : primitive p s = .done t ok b) :
    primitive p (s.relatch op arg) = .done (t.relatch op arg) ok b := by
  have hd : (s.answerAt 0).done = true := by
    cases hd : (s.answerAt 0).done
    · simp [primitive, hd] at h
    · rfl
  have hd' : ((s.relatch op arg).answerAt 0).done = true := hd
  cases p <;> simp only [primitive, hd, hd', if_true, Reply.done.injEq] at h ⊢ <;> obtain ⟨rfl, rfl, rfl⟩ := h
  · exact ⟨opened_relatch s, rfl, rfl⟩
  · exact ⟨closed_relatch s, rfl, rfl⟩
  · exact ⟨sent_relatch _ s, rfl, rfl⟩
  · exact ⟨gotten_relatch s, rfl, rfl⟩

theorem afterPrim_relatch (h : ActsAs m m' op arg) (q : Sq) (ok : Bool) (b : Byte) (s : State) :
    afterPrim m' q ok b (s.relatch op arg) = (afterPrim m q ok b s).relatch op arg := by
  have hcommit : commit m' (s.relatch op arg) = (commit m s).relatch op arg := by
    cases hf : s.fail with
    | true => rw [commit_failed (s := s.relatch op arg) hf, commit_failed hf]; rfl
    | false => rw [commit_good (s := s.relatch op arg) hf, commit_good hf, h.commit]; rfl
  have hlatch : latchByte q b (s.relatch op arg) = (latchByte q b s).relatch op arg := by cases q <;> rfl
  unfold afterPrim
  rw [hcommit, hlatch, h.format]
  split_ifs <;> rfl

theorem runCheck_relatch (h : ActsAs m m' op arg) (s : State) : runCheck m' (s.relatch op arg) = (runCheck m s).relatch op arg := by
  have hc : m'.check (s.relatch op arg).cfg (s.relatch op arg).arg = m.check s.cfg s.arg := h.check s.cfg s.arg
  unfold runCheck
  rw [hc]
  cases m.check s.cfg s.arg with
  | reject st => rfl
  | proceed data => cases data <;> rfl

theorem currentPrim_relatch (h : ActsAs m m' op arg) (s : State) : currentPrim m' (s.relatch op arg) = currentPrim m s := by
  have hbyte : ∀ q, bytePrim m' (s.relatch op arg) q = bytePrim m s q := by
    intro q
    unfold bytePrim
    rw [h.format, h.cmd]
    rfl
  unfold currentPrim
  simp only [hbyte]
  rfl

/-- A run with the other request latched goes the same way (R60, R90). -/
theorem runSteps_relatch (h : ActsAs m m' op arg) (n : Nat) (s : State) :
    runSteps m' n (s.relatch op arg) = (runSteps m n s).relatch op arg := by
  induction n generalizing s with
  | zero => rfl
  | succ n ih =>
    by_cases hi : s.sq = .idle
    · rw [runSteps_idle (s := s.relatch op arg) hi, runSteps_idle hi]
    by_cases hc : s.sq = .check
    · rw [runSteps_check (s := s.relatch op arg) hc, runSteps_check hc, runCheck_relatch h, ih]
    have hprim := currentPrim_relatch h s
    cases hp : currentPrim m s with
    | none =>
      rw [runSteps_pass (s := s.relatch op arg) hi hc (hprim.trans hp), runSteps_pass hi hc hp, h.format]
      exact ih (s.goto (nextSq m.format s.sq))
    | some p =>
      cases hr : primitive p s with
      | waiting t =>
        have hd : (s.answerAt 0).done = false := by
          cases hd : (s.answerAt 0).done
          · rfl
          · cases p <;> simp [primitive, hd] at hr
        rw [runSteps_waiting (s := s.relatch op arg) (hprim.trans hp) hd, runSteps_waiting hp hd]
        rfl
      | done t ok b =>
        rw [runSteps_done (hprim.trans hp) (primitive_relatch hr), runSteps_done hp hr]
        exact (congrArg _ (afterPrim_relatch h s.sq ok b t)).trans (ih _)

end

/-- ENT is WTC 1,1,1 and DIST is WTC 0,0,0 (R60): their CHECK and commit are those of the terminals the operand asks for. -/
theorem ent_actsAs_wtc {arg : Byte} (h : argTerminals arg = allConnected) : ActsAs entProgram wtcProgram 4#3 arg where
  cmd := rfl
  format := rfl
  check := fun c _ => congrArg (terminalCheck c) h
  commit := fun s => congrArg (terminalCommit · (s.relatch 4#3 arg)) h

theorem dist_actsAs_wtc {arg : Byte} (h : argTerminals arg = allDisconnected) : ActsAs distProgram wtcProgram 4#3 arg where
  cmd := rfl
  format := rfl
  check := fun c _ => congrArg (terminalCheck c) h
  commit := fun s => congrArg (terminalCommit · (s.relatch 4#3 arg)) h

/-- Two requests that differ in the latched request only, taken by an idle block. -/
theorem exec_relatch {i i' : Instr} {op op' : BitVec 3} {arg arg' : Byte} {s : State} (hi : hostRequest i = some (op, arg))
    (hi' : hostRequest i' = some (op', arg')) (hq : s.sq = .idle)
    (h : ActsAs (requestProgram op) (requestProgram op') op' arg') :
    ∃ t u, exec i s = .next t ∧ exec i' s = .next u ∧ { t with op := u.op, arg := u.arg } = u := by
  refine ⟨_, _, (exec_request hi s).trans (if_pos hq), (exec_request hi' s).trans (if_pos hq), ?_⟩
  rw [show s.accept op' arg' = (s.accept op arg).relatch op' arg' from rfl, runSteps_relatch h]
  rfl

/-- The same for a busy block that goes on. -/
theorem step_relatch {op op' : BitVec 3} {arg' : Byte} {s : State} (ho : s.op = op) (hr : s.rst = false) (hq : s.sq ≠ .idle)
    (h : ActsAs (requestProgram op) (requestProgram op') op' arg') :
    ∃ t u, step s = .next t ∧ step { s with op := op', arg := arg' } = .next u ∧ { t with op := u.op, arg := u.arg } = u := by
  refine ⟨_, _, step_busy hr hq, step_busy (s := s.relatch op' arg') hr hq, ?_⟩
  subst ho
  have hresume : (s.relatch op' arg').resume = s.resume.relatch op' arg' := runSteps_relatch h maxSteps s
  rw [hresume]
  rfl

/-- Settles O27: ENT and DIST run the micro-program of WTC but for the latched request. -/
theorem pseudoOperationsActAsTheirExpansions : Obligations.PseudoOperationsActAsTheirExpansions := by
  have hones : ∀ (xh : BitVec 4) (xl : Bool), argTerminals (xh ++ 0b111#3 ++ BitVec.ofBool xl) = allConnected := by decide
  have hzeros : ∀ (xh : BitVec 4) (xl : Bool), argTerminals (xh ++ 0b000#3 ++ BitVec.ofBool xl) = allDisconnected := by decide
  refine ⟨fun x xh xl s hq => ⟨?_, ?_⟩, fun xh xl s hr hq => ⟨fun ho => ?_, fun ho => ?_⟩⟩
  · exact exec_relatch rfl rfl hq (ent_actsAs_wtc (argTerminals_wtcArg true true true xh xl))
  · exact exec_relatch rfl rfl hq (dist_actsAs_wtc (argTerminals_wtcArg false false false xh xl))
  · exact step_relatch ho hr hq (ent_actsAs_wtc (hones xh xl))
  · exact step_relatch ho hr hq (dist_actsAs_wtc (hzeros xh xl))

end Sys2Proof.Machine
end

section
/-! PROOF. Write frames byte by byte, and the block with the reference peer (spec/20_memory.md section 6; 41_sequencer.md R85;
70_reset_and_hazards.md section 3). -/

namespace Sys2Proof.Machine

/-! ### A Write frame, by the answers to its bytes (R84, R85) -/

section
variable {m : MicroProgram} {s : State}

/-- A run that ends has got an answer to the primitive it stands at. -/
theorem done_of_run_idle {p : Prim} {n : Nat} (hp : currentPrim m s = some p) (hq : s.sq ≠ .idle)
    (hidle : (runSteps m (n + 1) s).sq = .idle) : (s.answerAt 0).done = true := by
  cases hd : (s.answerAt 0).done
  · rw [runSteps_waiting hp hd, consume_sq] at hidle
    exact absurd hidle hq
  · rfl

variable (hs : s.sq = .select) (hf : m.format = .w2)
include hs

/-- The first byte of a frame failed: `Deselect` follows, then the commit. -/
theorem runSteps_first_fails (hd : ∀ k, k < 3 → (s.answerAt k).done = true) (h1 : (s.answerAt 1).ok = false) :
    runSteps m 6 s = commit m ((s.opened.goto .b0).sent (m.cmd s.cfg)).abort.closed := by
  rw [runSteps_select hs (hd 0 (by omega)), runSteps_b0 rfl (by simpa using hd 1 (by omega)), if_neg (by simpa using h1),
    runSteps_finish rfl (by simpa using hd 2 (by omega))]
  simp

include hf

/-- Both bytes of a Write frame went through. -/
theorem runSteps_both_through (hd : ∀ k, k < 4 → (s.answerAt k).done = true) (h1 : (s.answerAt 1).ok = true)
    (h2 : (s.answerAt 2).ok = true) :
    runSteps m 6 s = commit m (((((s.opened.goto .b0).sent (m.cmd s.cfg)).goto .b1).sent s.d).goto .finish).closed := by
  rw [runSteps_select hs (hd 0 (by omega)), runSteps_b0 rfl (by simpa using hd 1 (by omega)), if_pos (by simpa using h1),
    runSteps_b1_write hf (by simp [hf, nextSq]) (by simpa using hd 2 (by omega)), if_pos (by simpa using h2),
    runSteps_finish rfl (by simpa using hd 3 (by omega))]
  simp [hf, nextSq]

/-- The second byte of a Write frame failed: `Deselect` follows, then the commit. -/
theorem runSteps_second_fails (hd : ∀ k, k < 4 → (s.answerAt k).done = true) (h1 : (s.answerAt 1).ok = true)
    (h2 : (s.answerAt 2).ok = false) :
    runSteps m 6 s = commit m ((((s.opened.goto .b0).sent (m.cmd s.cfg)).goto .b1).sent s.d).abort.closed := by
  rw [runSteps_select hs (hd 0 (by omega)), runSteps_b0 rfl (by simpa using hd 1 (by omega)), if_pos (by simpa using h1),
    runSteps_b1_write hf (by simp [hf, nextSq]) (by simpa using hd 2 (by omega)), if_neg (by simpa using h2),
    runSteps_finish rfl (by simpa using hd 3 (by omega))]
  simp [hf, nextSq]

/-- A Write frame whose bytes went through, up to its commit: `Select` and `Deselect` cannot fail (R81). -/
theorem run_w2_through (hn : s.fail = false) (hd : ∀ k, k < 4 → (s.answerAt k).done = true) (h1 : (s.answerAt 1).ok = true)
    (h2 : (s.answerAt 2).ok = true) :
    runSteps m 6 s = (m.commit (s.framed 4 [.selected, .wrote (m.cmd s.cfg) true, .wrote s.d true, .deselected]
      (s.peerAfter (Peer.writeFrame s.cfg (m.cmd s.cfg) s.d)))).release := by
  rw [runSteps_both_through hs hf hd h1 h2, commit_good (by simpa using hn)]
  congr 2
  unfold State.framed State.peerAfter
  cases hk : s.link <;> apply State.ext <;> simp [h1, h2, hk, Peer.writeFrame, ← List.drop_one, List.drop_drop]

omit hs hf in
/-- A run that ends after a failed byte reports it (R89). -/
theorem status_of_abort {n : Nat} (hidle : (runSteps m (n + 1) s.abort).sq = .idle) :
    (runSteps m (n + 1) s.abort).status = .transportFailure := by
  have hd := done_of_run_idle (p := .deselect) rfl (by simp) hidle
  rw [runSteps_finish rfl hd, commit_failed (by simp)]
  rfl

/-- A Write frame that has come to a result other than TransportFailure got an answer to each primitive, and its bytes went
through. -/
theorem runSteps_w2_inversion (hidle : (runSteps m 6 s).sq = .idle) (hok : (runSteps m 6 s).status ≠ .transportFailure) :
    (∀ k, k < 4 → (s.answerAt k).done = true) ∧ (s.answerAt 1).ok = true ∧ (s.answerAt 2).ok = true := by
  have h0 : (s.answerAt 0).done = true := done_of_run_idle (p := .select) (by simp [currentPrim, hs]) (by simp [hs]) hidle
  rw [runSteps_select hs h0] at hidle hok
  have hd1 := done_of_run_idle rfl (by simp) hidle
  rw [runSteps_b0 rfl hd1] at hidle hok
  cases h1 : ((s.opened.goto .b0).answerAt 0).ok with
  | false =>
    rw [if_neg (by rw [h1]; simp)] at hidle hok
    exact absurd (status_of_abort hidle) hok
  | true =>
    rw [if_pos h1, show nextSq m.format .b0 = .b1 by simp [hf, nextSq]] at hidle hok
    have hd2 := done_of_run_idle (p := .writeByte s.d) (by simp [currentPrim, bytePrim, hf]) (by simp) hidle
    rw [runSteps_b1_write hf rfl hd2] at hidle hok
    split_ifs at hidle hok with h2
    · have hd3 := done_of_run_idle (p := .deselect) rfl (by simp) hidle
      simp only [goto_answerAt, opened_answerAt, sent_answerAt] at hd1 h1 hd2 h2 hd3
      refine ⟨fun k hk => ?_, h1, h2⟩
      have hk : k = 0 ∨ k = 1 ∨ k = 2 ∨ k = 3 := by omega
      rcases hk with rfl | rfl | rfl | rfl <;> assumption
    · exact absurd (status_of_abort hidle) hok

end

/-- The register of the peer after a WRW whose data byte failed: its command byte stores nothing (R45). -/
theorem get_after_write_command {c : Config} (hc : c.wf) (p : Peer) (addr a : RegAddr) :
    ((p.select.write c (busByte addr c.cmdWrite 0#2)).deselect).get a = p.get a := by
  obtain ⟨hwi, hwd, -⟩ := Config.wf_codes hc
  rw [write_first p.select _ _ rfl, command_other _ (by simpa using hwi) (by simpa using hwd)]
  rfl

/-! ### A Write request, by the answers to its bytes -/

/-- The state at `Select` of a Write request with data byte `d` (R83). -/
def State.selecting (op : BitVec 3) (arg d : Byte) (s : State) : State := ((s.accept op arg).setD d).goto .select

/-- A Write request past its CHECK runs its frame from `Select`. -/
theorem request_selecting {op : BitVec 3} {arg d : Byte} {s : State} (hq : s.sq = .idle)
    (hc : (requestProgram op).check s.cfg arg = .proceed (some d)) :
    runRequest (requestProgram op) op arg s = .next (runSteps (requestProgram op) 6 (s.selecting op arg d)) := by
  rw [runRequest_idle hq, runCheck_data hc]
  rfl

/-- `t` is what a Write request of `s` leaves when a byte of its frame failed: the result TransportFailure, the shadow registers as
they were (R85, R89). At most four answers are used up, the failed one, number `f`, among them. -/
structure WriteFailed (s t : State) (f : Nat) : Prop where
  sq      : t.sq = .idle
  status  : t.status = .transportFailure
  cfg     : t.cfg = s.cfg
  w0      : t.w0 = s.w0
  tc      : t.tc = s.tc
  answers : ∃ j, f < j ∧ j ≤ 4 ∧ ∀ k, t.answerAt k = s.answerAt (k + j)

/-- A Write request one of whose two bytes failed. -/
theorem request_w2_fails {op : BitVec 3} {arg d : Byte} {s : State} {f : Nat} (hq : s.sq = .idle)
    (hf : (requestProgram op).format = .w2) (hc : (requestProgram op).check s.cfg arg = .proceed (some d)) (h12 : f = 1 ∨ f = 2)
    (hp : s.Prompt 4) (hbad : (s.answerAt f).ok = false) (hgood : ∀ k, k < f → (s.answerAt k).ok = true) :
    ∃ t, runRequest (requestProgram op) op arg s = .next t ∧ WriteFailed s t f := by
  refine ⟨_, request_selecting hq hc, ?_⟩
  rcases h12 with rfl | rfl
  · rw [runSteps_first_fails (s := s.selecting op arg d) rfl (fun k hk => hp k (by omega)) hbad, commit_failed (by simp)]
    exact ⟨rfl, rfl, by simp [State.selecting], by simp [State.selecting], by simp [State.selecting], 3, by omega, by omega,
      fun k => by simp [State.selecting]⟩
  · rw [runSteps_second_fails (s := s.selecting op arg d) rfl hf hp (hgood 1 (by omega)) hbad, commit_failed (by simp)]
    exact ⟨rfl, rfl, by simp [State.selecting], by simp [State.selecting], by simp [State.selecting], 4, by omega, by omega,
      fun k => by simp [State.selecting]⟩

/-! ### The block with the reference peer -/

theorem State.Lucky.mono {s : State} {m n : Nat} (h : s.Lucky n) (hle : m ≤ n) : s.Lucky m :=
  fun k hk => h k (by omega)

theorem State.Lucky.prompt {s : State} {n : Nat} (h : s.Lucky n) : s.Prompt n := fun k hk => (h k hk).1

/-- With the reference peer attached, what a frame has stored is what the peer holds. -/
theorem State.StoredAt.get {s : State} {a : RegAddr} {v : Byte} {p : Peer} (h : s.StoredAt a v p) (hl : s.link = .reference) :
    p.get a = v := by
  simp only [State.StoredAt, hl] at h
  exact h.1

theorem saturate_of_le {v : Byte} (h : v.toNat ≤ 128) : saturate v = v := by
  have := saturate_toNat v
  exact BitVec.eq_of_toNat_eq (by omega)

/-- A WRW in range that has come to OK has stored its operand in the shadow and, through its frame, in the peer (R100). -/
theorem wrw_ok {v : Byte} {s t : State} (hc : s.cfg.wf) (hl : s.link = .reference) (hq : s.sq = .idle) (hv : v.toNat ≤ 128)
    (h : exec (.wrw v) s = .next t) (hidle : t.sq = .idle) (hok : t.status = .ok) :
    t.cfg = s.cfg ∧ t.link = s.link ∧ t.peer.get s.cfg.addrWiper0 = v := by
  rw [exec_request (i := .wrw v) rfl, request_selecting (op := 0#3) hq (wrwCheck_proceed fun _ => hv)] at h
  cases h
  obtain ⟨hd, h1, h2⟩ := runSteps_w2_inversion (m := requestProgram 0#3) (s := s.selecting _ _ _) rfl rfl hidle (by rw [hok]; simp)
  rw [run_w2_through (m := requestProgram 0#3) (s := s.selecting _ _ _) rfl rfl rfl hd h1 h2]
  refine ⟨rfl, rfl, ?_⟩
  have hstored := (storedAt_of (stored_write hc s.peer s.cfg.addrWiper0 0#2 (saturate v))).get hl
  exact hstored.trans (saturate_of_le hv)

/-- Settles O47: the peer holds what WRW stored, and RDW reads it. -/
theorem writeThenReadReturnsTheValue : Obligations.WriteThenReadReturnsTheValue := by
  intro v x s t hc hl hq hv h hidle hok hlucky
  obtain ⟨hcfg, hlink, hget⟩ := wrw_ok hc hl hq hv h hidle hok
  obtain ⟨p, hi, lo, -, hresponse, e⟩ := rdwCompletes x t (hcfg ▸ hc) hidle hlucky
  simp only [State.Response, hlink.trans hl, hcfg, hget] at hresponse
  obtain ⟨-, rfl⟩ := hresponse
  exact ⟨_, e, rfl, if_pos hv, if_pos hv⟩

/-- Inside the bounds the device steps as the shadow does (R45, R120, R121). -/
theorem device_steps (v : Byte) (h : v.toNat ≤ 128) :
    deviceUp v = (if v = 128#8 then v else v + 1#8) ∧ deviceDown v = (if v = 0#8 then v else v - 1#8) := by
  revert v; decide

section
variable {v : Byte} {s t : State} (hc : s.cfg.wf) (hl : s.link = .reference) (hq : s.sq = .idle)
  (ha : s.peer.get s.cfg.addrWiper0 = s.w0)
include hc hl hq ha

/-- WRW keeps the agreement: it stores its byte on both sides, or, rejected, on neither. -/
theorem wrw_agrees (hlucky : s.Lucky 4) (h : exec (.wrw v) s = .next t) : t.peer.get s.cfg.addrWiper0 = t.w0 := by
  by_cases hv : s.cfg.variant = .B → v.toNat ≤ 128
  · obtain ⟨d, p, -, hp, e⟩ := wrwCompletes v s hc hq hv hlucky
    rw [e] at h
    cases h
    exact hp.get hl
  · push Not at hv
    rw [wrwOutOfRangeIsRejectedByTheStrictVariant v s hq hv.1 hv.2] at h
    cases h
    exact ha

/-- RDW writes neither side. -/
theorem rdw_agrees (hlucky : s.Lucky 6) (h : exec (.rdw v) s = .next t) : t.peer.get s.cfg.addrWiper0 = t.w0 := by
  obtain ⟨p, hi, lo, hp, -, e⟩ := rdwCompletes v s hc hq hlucky
  rw [e] at h
  cases h
  simp only [State.StoredNothing, hl] at hp
  have hget : p.get s.cfg.addrWiper0 = s.peer.get s.cfg.addrWiper0 := by rw [Peer.get, hp]; rfl
  exact hget.trans ha

/-- INC and DEC step both sides alike, at the bounds too. -/
theorem inc_agrees (hw : s.w0.toNat ≤ 128) (hlucky : s.Lucky 3) (h : exec (.inc v) s = .next t) :
    t.peer.get s.cfg.addrWiper0 = t.w0 ∧ t.w0 = if s.w0 = 128#8 then s.w0 else s.w0 + 1#8 := by
  obtain ⟨p, hp, e⟩ := incCompletes v s hc hq hlucky
  rw [e] at h
  cases h
  rw [ha] at hp
  exact ⟨(hp.get hl).trans (device_steps s.w0 hw).1, rfl⟩

theorem dec_agrees (hw : s.w0.toNat ≤ 128) (hlucky : s.Lucky 3) (h : exec (.dec v) s = .next t) :
    t.peer.get s.cfg.addrWiper0 = t.w0 ∧ t.w0 = if s.w0 = 0#8 then s.w0 else s.w0 - 1#8 := by
  obtain ⟨p, hp, e⟩ := decCompletes v s hc hq hlucky
  rw [e] at h
  cases h
  rw [ha] at hp
  exact ⟨(hp.get hl).trans (device_steps s.w0 hw).2, rfl⟩

/-- A WRW whose data byte failed leaves both sides, in either variant. -/
theorem wrw_failed_agrees (hp : s.Prompt 4) (h1 : (s.answerAt 1).ok = true) (h2 : (s.answerAt 2).ok = false)
    (h : exec (.wrw v) s = .next t) : t.w0 = s.w0 ∧ t.peer.get s.cfg.addrWiper0 = s.w0 := by
  by_cases hv : s.cfg.variant = .B → v.toNat ≤ 128
  · rw [exec_request (i := .wrw v) rfl, request_selecting (op := 0#3) hq (wrwCheck_proceed hv),
      runSteps_second_fails (m := requestProgram 0#3) (s := s.selecting _ _ _) rfl rfl hp h1 h2, commit_failed (by simp)] at h
    cases h
    refine ⟨by simp [State.selecting], ?_⟩
    have hpeer := get_after_write_command hc s.peer s.cfg.addrWiper0 s.cfg.addrWiper0
    simpa [State.selecting, hl, h1, h2, ha, wrwProgram, memWrite] using hpeer
  · push Not at hv
    rw [wrwOutOfRangeIsRejectedByTheStrictVariant v s hq hv.1 hv.2] at h
    cases h
    exact ⟨rfl, ha⟩

end

/-- Settles O48: operation by operation. -/
theorem shadowAndPeerStayInAgreement : Obligations.ShadowAndPeerStayInAgreement := by
  intro v s t hc hl hq hw ha
  refine ⟨fun hlucky i hi h => ?_, fun hlucky h128 h => ?_, fun hlucky h0 h => ?_, fun hlucky hp h2 h => ?_⟩
  · simp only [List.mem_cons, List.not_mem_nil, or_false] at hi
    rcases hi with rfl | rfl | rfl | rfl
    · exact wrw_agrees hc hl hq ha (hlucky.mono (by omega)) h
    · exact rdw_agrees hc hl hq ha hlucky h
    · exact (inc_agrees hc hl hq ha hw (hlucky.mono (by omega)) h).1
    · exact (dec_agrees hc hl hq ha hw (hlucky.mono (by omega)) h).1
  · obtain ⟨hagree, hw0⟩ := inc_agrees hc hl hq ha hw (hlucky.mono (by omega)) h
    rw [if_pos h128, h128] at hw0
    exact ⟨hw0, hagree.trans hw0⟩
  · obtain ⟨hagree, hw0⟩ := dec_agrees hc hl hq ha hw (hlucky.mono (by omega)) h
    rw [if_pos h0, h0] at hw0
    exact ⟨hw0, hagree.trans hw0⟩
  · exact wrw_failed_agrees hc hl hq ha hp (hlucky 1 (by omega)).2 h2 h

/-- Settles O49: the status and `W[0]` follow the shadow, the device its own bound. -/
theorem stepAtTheBoundIsDecidedOnTheShadow : Obligations.StepAtTheBoundIsDecidedOnTheShadow := by
  intro x s hc hl hq hlucky
  obtain ⟨p, hp, e⟩ := incCompletes x s hc hq hlucky
  obtain ⟨p', hp', e'⟩ := decCompletes x s hc hq hlucky
  have hup := hp.get hl
  have hdown := hp'.get hl
  refine ⟨fun hw hlt => ⟨_, e, if_pos hw, (if_pos hw).trans hw, hup.trans (if_pos hlt)⟩, fun hw htop => ?_,
    fun hw hgt => ⟨_, e', if_pos hw, (if_pos hw).trans hw, hdown.trans (if_pos hgt)⟩, fun hw hbottom => ?_⟩
  · have hne : s.w0 ≠ 128#8 := fun h => by simp [h] at hw
    exact ⟨_, e, if_neg hne, if_neg hne, hup.trans (by rw [htop]; rfl)⟩
  · have hne : s.w0 ≠ 0#8 := fun h => by simp [h] at hw
    exact ⟨_, e', if_neg hne, if_neg hne, hdown.trans (by rw [hbottom]; rfl)⟩

end Sys2Proof.Machine
end

section
/-! PROOF. The documented host (spec/47_host_fan_adapter.md): what each part of a call comes to, and from that what every step of
the adapter keeps (R141 to R148). -/

namespace Sys2Proof.Machine

/-! ### What each part of a call comes to -/

/-- No instruction changes the build. -/
theorem exec_cfg {i : Instr} {s t : State} (h : exec i s = .next t) : t.cfg = s.cfg := by
  by_cases hq : s.sq = .idle
  · cases hi : hostRequest i with
    | none =>
      obtain ⟨f, reply, -, e⟩ := exec_frame hi s
      rw [e, runFrame_idle hq] at h
      cases h
      rfl
    | some q =>
      rw [exec_request hi, runRequest, if_pos hq] at h
      cases h
      exact (kept_runSteps q.1 maxSteps (s.accept q.1 q.2)).cfg
  · rw [exec_busy i hq] at h
    cases h
    rfl

section
variable {r r' : Rig}

/-- The speed part of a request: nothing to do but publish, or WRW with its result, or a wait for it (R146, R148). -/
theorem startSpeed_cases {speed : Option Int} (h : r.startSpeed speed = .next r') :
    (speed = none ∧ r' = { r with fan := r.fan.publish }) ∨
    ∃ level s, speed = some level ∧ exec (.wrw (BitVec.ofNat 8 (speedToWiper level r.fan.speedCount))) r.dpc = .next s ∧
      ((s.sq = .idle ∧ r' = ⟨s, ((r.fan.become (.speeding level)).speedResult level s.status).publish, r.calls⟩) ∨
        (s.sq ≠ .idle ∧ r' = ⟨s, r.fan.become (.speeding level), r.calls⟩)) := by
  cases speed with
  | none => cases h; exact .inl ⟨rfl, rfl⟩
  | some level =>
    obtain ⟨s, hs, ⟨hq, hgo⟩ | ⟨hq, hw⟩⟩ := issue_next h
    · cases hgo; exact .inr ⟨level, s, rfl, hs, .inl ⟨hq, rfl⟩⟩
    · exact .inr ⟨level, s, rfl, hs, .inr ⟨hq, hw⟩⟩

/-- The on/off part of a request: ENT or DIST with its result, and the speed part after it, or a wait for it (R145). -/
theorem startSwitch_cases {v : Bool} {speed : Option Int} (h : r.startSwitch (some v) speed = .next r') :
    ∃ s, exec (if v then .ent 0#8 else .dist 0#8) r.dpc = .next s ∧
      ((s.sq = .idle ∧ Rig.switchDone v speed ⟨s, r.fan.become (.switching v speed), r.calls⟩ = .next r') ∨
        (s.sq ≠ .idle ∧ r' = ⟨s, r.fan.become (.switching v speed), r.calls⟩)) :=
  issue_next h

/-- After WRW 0: setup is over in variant A; in variant B DIST has its result, or is waited for (R143). -/
theorem wiperDone_cases (h : r.wiperDone = .next r') :
    (r.dpc.cfg.variant = .A ∧ r' = { r with fan := (r.fan.zeroResult r.dpc.status).setupResult r.dpc.status true }) ∨
    (r.dpc.cfg.variant = .B ∧ ∃ s, exec (.dist 0#8) r.dpc = .next s ∧
      ((s.sq = .idle ∧ r' = ⟨s, ((r.fan.zeroResult r.dpc.status).become (.setupTerminals r.dpc.status)).setupResult r.dpc.status
          (decide (s.status = .ok)), r.calls⟩) ∨
        (s.sq ≠ .idle ∧ r' = ⟨s, (r.fan.zeroResult r.dpc.status).become (.setupTerminals r.dpc.status), r.calls⟩))) := by
  unfold Rig.wiperDone at h
  cases hv : r.dpc.cfg.variant <;> simp only [hv] at h
  · cases h; exact .inl ⟨rfl, rfl⟩
  · obtain ⟨s, hs, ⟨hq, hgo⟩ | ⟨hq, hw⟩⟩ := issue_next h
    · cases hgo; exact .inr ⟨rfl, s, hs, .inl ⟨hq, rfl⟩⟩
    · exact .inr ⟨rfl, s, hs, .inr ⟨hq, hw⟩⟩

/-- Setup: WRW 0 with its result, and what follows it, or a wait for it (R143). -/
theorem setup_cases (h : r.setup = .next r') :
    r.fan.setUp = false ∧ ∃ s, exec (.wrw 0#8) r.dpc = .next s ∧
      ((s.sq = .idle ∧ Rig.wiperDone ⟨s, { r.fan with setUp := true }.become .setupWiper, r.calls⟩ = .next r') ∨
        (s.sq ≠ .idle ∧ r' = ⟨s, { r.fan with setUp := true }.become .setupWiper, r.calls⟩)) := by
  unfold Rig.setup at h
  split at h
  · cases h
  · rename_i hset
    exact ⟨by simpa using hset, issue_next h⟩

/-- A control request is served by a healthy adapter that has been set up (R140, R142). -/
theorem control_cases {q : ControlRequest} (h : r.control q = .next r') :
    r.fan.setUp = true ∧ r.fan.failed = false ∧ r.startSwitch q.on q.speed = .next r' := by
  unfold Rig.control at h
  split_ifs at h with hset hfail
  exact ⟨hset, by simpa using hfail, h⟩

end

/-! ### What a control request does to the adapter (R144 to R148) -/

/-- What a part of a control request that brings `r` to `r'` keeps; and it publishes once, where it ends the request. -/
structure ControlEffect (r r' : Rig) : Prop where
  cfg        : r'.dpc.cfg = r.dpc.cfg
  calls      : r'.calls = r.calls
  speedCount : r'.fan.speedCount = r.fan.speedCount
  failed     : r'.fan.failed = r.fan.failed
  published  : (r'.fan.task = .ready → r'.fan.published = r.fan.published ++ [(r'.fan.on, r'.fan.speedLevel)]) ∧
    (r'.fan.task ≠ .ready → r'.fan.published = r.fan.published)
  task       : ∀ w, r'.fan.task ≠ .setupTerminals w

theorem startSpeed_effect {r r' : Rig} {speed : Option Int} (h : r.startSpeed speed = .next r') :
    ControlEffect r r' ∧ r'.fan.on = r.fan.on := by
  rcases startSpeed_cases h with ⟨-, rfl⟩ | ⟨level, s, -, hs, ⟨-, rfl⟩ | ⟨-, rfl⟩⟩
  · exact ⟨⟨rfl, rfl, rfl, rfl, ⟨fun _ => rfl, fun hn => absurd rfl hn⟩, by simp⟩, rfl⟩
  · exact ⟨⟨exec_cfg hs, rfl, by simp, by simp, ⟨fun _ => by simp, fun hn => absurd rfl hn⟩, by simp⟩, by simp⟩
  · exact ⟨⟨exec_cfg hs, rfl, rfl, rfl, ⟨by simp, fun _ => rfl⟩, by simp⟩, rfl⟩

/-- An effect that begins after a change of the task or of `on` is one from before it. -/
theorem ControlEffect.of_eq {r u r' : Rig} (h : ControlEffect u r') (hcfg : u.dpc.cfg = r.dpc.cfg) (hcalls : u.calls = r.calls)
    (hcount : u.fan.speedCount = r.fan.speedCount) (hfailed : u.fan.failed = r.fan.failed)
    (hpub : u.fan.published = r.fan.published) : ControlEffect r r' :=
  ⟨h.cfg.trans hcfg, h.calls.trans hcalls, h.speedCount.trans hcount, h.failed.trans hfailed, hpub ▸ h.published, h.task⟩

theorem switchDone_effect {r r' : Rig} {v : Bool} {speed : Option Int} (h : r.switchDone v speed = .next r') :
    ControlEffect r r' ∧ r'.fan.on = if r.dpc.status = .ok then v else r.fan.on := by
  obtain ⟨heffect, hon⟩ := startSpeed_effect h
  exact ⟨heffect.of_eq rfl rfl (by simp) (by simp) (by simp), hon.trans (by simp)⟩

theorem startSwitch_effect {r r' : Rig} {on : Option Bool} {speed : Option Int} (h : r.startSwitch on speed = .next r') :
    ControlEffect r r' := by
  cases on with
  | none => exact (startSpeed_effect h).1
  | some v =>
    obtain ⟨s, hs, ⟨-, hgo⟩ | ⟨-, rfl⟩⟩ := startSwitch_cases h
    · exact (switchDone_effect hgo).1.of_eq (exec_cfg hs) rfl rfl rfl rfl
    · exact ⟨exec_cfg hs, rfl, rfl, rfl, ⟨by simp, fun _ => rfl⟩, by simp⟩

theorem speedDone_effect {r r' : Rig} {level : Int} (h : r.speedDone level = .next r') : ControlEffect r r' := by
  cases h
  exact ⟨rfl, rfl, by simp, by simp, ⟨fun _ => by simp, fun hn => absurd rfl hn⟩, by simp⟩

/-! ### What setup does to the adapter (R142, R143) -/

/-- What a part of setup that brings `r` to `r'` keeps: it publishes nothing, and clears no failure. -/
structure SetupEffect (r r' : Rig) : Prop where
  cfg        : r'.dpc.cfg = r.dpc.cfg
  calls      : r'.calls = r.calls
  speedCount : r'.fan.speedCount = r.fan.speedCount
  published  : r'.fan.published = r.fan.published
  failed     : r.fan.failed = true → r'.fan.failed = true
  current    : r'.fan.task = .setupTerminals .ok → r'.fan.cachedWiper = some 0#8

/-- After a standing failure the adapter is doomed, whatever it does. -/
theorem doomed_of_failed {f : Fan} (h : f.failed = true) : f.doomed = true := by simp [Fan.doomed, h]

theorem wiperDone_effect {r r' : Rig} (h : r.wiperDone = .next r') :
    SetupEffect r r' ∧ r'.fan.cachedWiper = (if r.dpc.status = .ok then some 0#8 else r.fan.cachedWiper) ∧
      (r.dpc.status ≠ .ok → r'.fan.doomed = true) := by
  rcases wiperDone_cases h with ⟨-, rfl⟩ | ⟨-, s, hs, ⟨-, rfl⟩ | ⟨-, rfl⟩⟩
  · exact ⟨⟨rfl, rfl, by simp, by simp, fun hf => by simp [hf], by simp⟩, by simp, fun hn => by simp [Fan.doomed, hn]⟩
  · exact ⟨⟨exec_cfg hs, rfl, by simp, by simp, fun hf => by simp [hf], by simp⟩, by simp, fun hn => by simp [Fan.doomed, hn]⟩
  · refine ⟨⟨exec_cfg hs, rfl, by simp, by simp, fun hf => by simp [hf], fun ht => ?_⟩, by simp, fun hn => by simp [Fan.doomed, hn]⟩
    simp only [become_task, Task.setupTerminals.injEq] at ht
    simp [ht]

/-- A DIST of setup that has come to an error makes the failure stand (R142). -/
theorem wiperDone_failed {r r' : Rig} {u : State} (h : r.wiperDone = .next r') (hB : r.dpc.cfg.variant = .B)
    (hu : exec (.dist 0#8) r.dpc = .next u) (hq : u.sq = .idle) (hst : u.status ≠ .ok) : r'.fan.failed = true := by
  rcases wiperDone_cases h with ⟨hA, -⟩ | ⟨-, s, hs, hor⟩
  · simp [hB] at hA
  · cases hs.symm.trans hu
    rcases hor with ⟨-, rfl⟩ | ⟨hn, -⟩
    · simp [hst]
    · exact absurd hq hn

theorem setup_effect {r r' : Rig} (h : r.setup = .next r') : SetupEffect r r' := by
  obtain ⟨-, s, hs, ⟨-, hgo⟩ | ⟨-, rfl⟩⟩ := setup_cases h
  · have he := (wiperDone_effect hgo).1
    exact ⟨he.cfg.trans (exec_cfg hs), he.calls, he.speedCount, he.published, he.failed, he.current⟩
  · exact ⟨exec_cfg hs, rfl, rfl, rfl, id, by simp⟩

theorem terminalsDone_effect {r r' : Rig} {w : Status} (h : r.terminalsDone w = .next r') :
    SetupEffect r r' ∧ (w ≠ .ok → r'.fan.failed = true) ∧ (r.dpc.status ≠ .ok → r'.fan.failed = true) := by
  cases h
  exact ⟨⟨rfl, rfl, rfl, rfl, fun hf => by simp [hf], by simp⟩, fun hw => by simp [hw], fun hst => by simp [hst]⟩

/-! ### What a step of the adapter comes to -/

/-- What a step of the adapter does to it: nothing, one more wait, a part of a control request, or a part of setup. -/
inductive StepEffect (r r' : Rig) : Prop where
  | rests (ready : r.fan.task = .ready) (calls : r.calls = []) (same : r' = r)
  | waits (busy : r.fan.task ≠ .ready) (same : r' = { r with dpc := r.dpc.resume })
  | control (u : Rig) (inControl : r.inControl = true) (fan : u.fan = r.fan) (cfg : u.dpc.cfg = r.dpc.cfg)
      (effect : ControlEffect u r')
  | setup (u : Rig) (inControl : r.inControl = false) (fan : u.fan = r.fan) (cfg : u.dpc.cfg = r.dpc.cfg)
      (effect : SetupEffect u r') (doomed : r.fan.doomed = true → r'.fan.failed = true)

/-- An adapter with no bus call of setup behind it is doomed only by a standing failure. -/
theorem doomed_eq_failed {f : Fan} (h : ∀ w, f.task ≠ .setupTerminals w) : f.doomed = f.failed := by
  unfold Fan.doomed
  cases ht : f.task <;> simp_all

theorem rig_step_effect {r r' : Rig} (h : r.step = .next r') : StepEffect r r' := by
  have hcfg : r.dpc.resume.cfg = r.dpc.cfg := (kept_resume r.dpc).cfg
  rcases rig_step_cases h with ⟨ht, hc, e⟩ | ⟨ht, c, rest, hc, hserve⟩ | ⟨ht, hq, hgo⟩ | ⟨ht, hq, e⟩
  · exact .rests ht hc e
  · have hdoomed : r.fan.doomed = r.fan.failed := doomed_eq_failed (by simp [ht])
    cases c with
    | setup =>
      have he := setup_effect hserve
      exact .setup { r with calls := rest } (by simp [Rig.inControl, ht, hc]) rfl rfl he fun hd => he.failed (hdoomed ▸ hd)
    | control q =>
      obtain ⟨-, -, hgo⟩ := control_cases hserve
      exact .control { r with calls := rest } (by simp [Rig.inControl, ht, hc]) rfl rfl (startSwitch_effect hgo)
  · unfold Rig.proceed at hgo
    cases htask : r.fan.task with
    | ready => exact absurd htask ht
    | setupWiper =>
      simp only [htask] at hgo
      have hdoomed : r.fan.doomed = r.fan.failed := doomed_eq_failed (by simp [htask])
      have he := (wiperDone_effect hgo).1
      exact .setup { r with dpc := r.dpc.resume } (by simp [Rig.inControl, htask]) rfl hcfg he fun hd => he.failed (hdoomed ▸ hd)
    | setupTerminals w =>
      simp only [htask] at hgo
      obtain ⟨he, hw, -⟩ := terminalsDone_effect hgo
      refine .setup { r with dpc := r.dpc.resume } (by simp [Rig.inControl, htask]) rfl hcfg he fun hd => ?_
      simp only [Fan.doomed, htask, Bool.or_eq_true, decide_eq_true_eq] at hd
      exact hd.elim he.failed hw
    | switching v speed =>
      simp only [htask] at hgo
      exact .control { r with dpc := r.dpc.resume } (by simp [Rig.inControl, htask]) rfl hcfg (switchDone_effect hgo).1
    | speeding level =>
      simp only [htask] at hgo
      exact .control { r with dpc := r.dpc.resume } (by simp [Rig.inControl, htask]) rfl hcfg (speedDone_effect hgo)
  · exact .waits ht e

/-- A step of a waiting adapter whose block has come to its result goes on with the task. -/
theorem rig_step_proceeds {r : Rig} (ht : r.fan.task ≠ .ready) (hq : r.dpc.resume.sq = .idle) :
    r.step = Rig.proceed { r with dpc := r.dpc.resume } := by
  rw [Rig.step, if_neg ht, if_pos hq]

/-- A step of a waiting adapter whose block has no result yet waits on. -/
theorem rig_step_waits {r : Rig} (ht : r.fan.task ≠ .ready) (hq : r.dpc.resume.sq ≠ .idle) :
    r.step = .next { r with dpc := r.dpc.resume } := by
  rw [Rig.step, if_neg ht, if_neg hq]

/-- A step of a ready adapter serves the next call. -/
theorem rig_step_serves {r : Rig} {c : Call} {rest : List Call} (ht : r.fan.task = .ready) (hc : r.calls = c :: rest) :
    r.step = Rig.serve c { r with calls := rest } := by
  simp [Rig.step, ht, hc]

end Sys2Proof.Machine
end

section
/-! PROOF. What every step of the documented host keeps, and what it refuses (spec/47_host_fan_adapter.md R141, R142, R147, R148). -/

namespace Sys2Proof.Machine

/-! ### Creation and the fixed speed count (R141) -/

theorem create_wf {c : Config} (hc : c.wf) (n : Int) : Rig.create c n = .next ⟨State.powerOn c, Fan.created n, []⟩ := by
  rw [Rig.create, State.boot, if_pos hc]
  rfl

theorem create_illFormed {c : Config} (hc : ¬ c.wf) (n : Int) : Rig.create c n = .refused .illFormedConfig := by
  rw [Rig.create, State.boot, if_neg hc]
  rfl

/-- Settles O51. -/
theorem fanIsCreatedWithAFixedSpeedCount : Obligations.FanIsCreatedWithAFixedSpeedCount := by
  refine ⟨fun c n hc => ⟨_, create_wf hc n, rfl, rfl, rfl, rfl, rfl, rfl, rfl, rfl⟩, fun c n hc => create_illFormed hc n,
    fun r r' h => ?_⟩
  cases rig_step_effect h with
  | rests _ _ e => subst e; exact ⟨rfl, rfl⟩
  | waits _ e => subst e; exact ⟨rfl, (kept_resume r.dpc).cfg⟩
  | control u _ hfan hcfg he => exact ⟨he.speedCount.trans (by rw [hfan]), he.cfg.trans hcfg⟩
  | setup u _ hfan hcfg he _ => exact ⟨he.speedCount.trans (by rw [hfan]), he.cfg.trans hcfg⟩

/-! ### Publication (R148) -/

/-- Settles O58: a control request publishes where it ends; setup and a wait do not. -/
theorem fanPublishesItsState : Obligations.FanPublishesItsState := by
  intro r r' h
  cases rig_step_effect h with
  | rests ht hc e =>
    subst e
    have hout : r'.inControl = false := by simp [Rig.inControl, ht, hc]
    simp [hout]
  | waits ht e =>
    subst e
    exact ⟨fun _ hr => absurd hr ht, fun _ _ => rfl, fun _ => rfl⟩
  | control u hin hfan _ he =>
    rw [← hfan]
    exact ⟨fun _ => he.published.1, fun _ => he.published.2, by simp [hin]⟩
  | setup u hout hfan _ he _ =>
    rw [← hfan]
    exact ⟨by simp [hout], by simp [hout], fun _ => he.published⟩

/-! ### The failed flag (R142) -/

/-- Every step keeps a standing failure, and the doom of a setup whose WRW 0 failed. -/
theorem rig_step_failed {r r' : Rig} (h : r.step = .next r') :
    (r.fan.doomed = true → r'.fan.doomed = true) ∧ (r.fan.failed = true → r'.fan.failed = true) ∧
    (r.inControl = true → r'.fan.failed = r.fan.failed) := by
  cases rig_step_effect h with
  | rests _ _ e => subst e; exact ⟨id, id, fun _ => rfl⟩
  | waits _ e => subst e; exact ⟨id, id, fun _ => rfl⟩
  | control u hin hfan _ he =>
    have hsame : r'.fan.failed = r.fan.failed := he.failed.trans (by rw [hfan])
    have hbefore : r.fan.doomed = r.fan.failed := by
      refine doomed_eq_failed fun w ht => ?_
      simp [Rig.inControl, ht] at hin
    have hafter : r'.fan.doomed = r'.fan.failed := doomed_eq_failed he.task
    exact ⟨fun hd => by rw [hafter, hsame, ← hbefore, hd], fun hf => by rw [hsame, hf], fun _ => hsame⟩
  | setup u hout hfan _ he hdoomed =>
    exact ⟨fun hd => doomed_of_failed (hdoomed hd), fun hf => he.failed (by rw [hfan, hf]), by simp [hout]⟩

/-- A step of an adapter whose WRW 0 of setup has its result goes on with setup. -/
theorem rig_step_setupWiper {r r' : Rig} (h : r.step = .next r') (ht : r.fan.task = .setupWiper) (hq : r.dpc.resume.sq = .idle) :
    Rig.wiperDone { r with dpc := r.dpc.resume } = .next r' := by
  rw [rig_step_proceeds (by simp [ht]) hq, Rig.proceed] at h
  simpa only [ht] using h

/-- A step of an adapter whose DIST of setup has its result ends setup. -/
theorem rig_step_setupTerminals {r r' : Rig} {w : Status} (h : r.step = .next r') (ht : r.fan.task = .setupTerminals w)
    (hq : r.dpc.resume.sq = .idle) : Rig.terminalsDone w { r with dpc := r.dpc.resume } = .next r' := by
  rw [rig_step_proceeds (by simp [ht]) hq, Rig.proceed] at h
  simpa only [ht] using h

/-- Settles O54: by the bus call of setup that failed, at once or in the step that finds its result. -/
theorem fanFailedFlagStands : Obligations.FanFailedFlagStands := by
  refine ⟨fun r r' h => (rig_step_failed h).1, fun r r' h => (rig_step_failed h).2.1, fun r r' s h hs hq hst => ?_,
    fun r r' h ht hq hst => ?_, fun r r' s u h hB hs hq hu huq hst => ?_, fun r r' u h ht hB hq hu huq hst => ?_,
    fun r r' w h ht hq hst => ?_, fun r r' h => (rig_step_failed h).2.2, fun _ => rfl⟩
  · obtain ⟨-, s', hs', ⟨-, hgo⟩ | ⟨hn, -⟩⟩ := setup_cases h <;> cases hs'.symm.trans hs
    · exact (wiperDone_effect hgo).2.2 hst
    · exact absurd hq hn
  · exact (wiperDone_effect (rig_step_setupWiper h ht hq)).2.2 hst
  · obtain ⟨-, s', hs', ⟨-, hgo⟩ | ⟨hn, -⟩⟩ := setup_cases h <;> cases hs'.symm.trans hs
    · exact wiperDone_failed hgo ((congrArg Config.variant (exec_cfg hs)).trans hB) hu huq hst
    · exact absurd hq hn
  · have hvariant : r.dpc.resume.cfg.variant = .B := by rw [(kept_resume r.dpc).cfg, hB]
    exact wiperDone_failed (rig_step_setupWiper h ht hq) hvariant hu huq hst
  · exact (terminalsDone_effect (rig_step_setupTerminals h ht hq)).2.2 hst

/-! ### What the adapter refuses, and what it does not (R140, R142) -/

/-- An issued operation is refused only where what follows its result is. -/
theorem issue_exists {i : Instr} {k : Task} {go : Rig → Host.Outcome Rig Fault Refusal} (r : Rig)
    (hgo : ∀ u, ∃ r', go u = .next r') : ∃ r', r.issue i k go = .next r' := by
  obtain ⟨s, hs⟩ := exec_next i r.dpc
  rcases issue_cases (k := k) (go := go) hs with ⟨-, e⟩ | ⟨-, e⟩ <;> rw [e]
  · exact hgo _
  · exact ⟨_, rfl⟩

theorem startSpeed_exists (speed : Option Int) (r : Rig) : ∃ r', r.startSpeed speed = .next r' := by
  cases speed with
  | none => exact ⟨_, rfl⟩
  | some level => exact issue_exists r fun _ => ⟨_, rfl⟩

theorem startSwitch_exists (on : Option Bool) (speed : Option Int) (r : Rig) : ∃ r', r.startSwitch on speed = .next r' := by
  cases on with
  | none => exact startSpeed_exists speed r
  | some v => exact issue_exists r fun _ => startSpeed_exists speed _

theorem wiperDone_exists (r : Rig) : ∃ r', r.wiperDone = .next r' := by
  unfold Rig.wiperDone
  cases r.dpc.cfg.variant
  · exact ⟨_, rfl⟩
  · exact issue_exists _ fun _ => ⟨_, rfl⟩

/-- A healthy adapter serves a control request (R140, R142). -/
theorem control_healthy {r : Rig} (h : r.fan.healthy) (q : ControlRequest) : r.control q = r.startSwitch q.on q.speed := by
  obtain ⟨hset, hfail, -⟩ := h
  simp [Rig.control, hset, hfail]

/-- An adapter whose setup has not been called serves it (R143). -/
theorem setup_fresh {r : Rig} (h : r.fan.setUp = false) :
    r.setup = Rig.issue (.wrw 0#8) .setupWiper Rig.wiperDone { r with fan := { r.fan with setUp := true } } := by
  simp [Rig.setup, h]

/-- Settles O55. -/
theorem fanRefusals : Obligations.FanRefusals := by
  intro r q
  refine ⟨fun hs hf => by simp [Rig.control, hs, hf], fun hs => by simp [Rig.control, hs], fun hs => by simp [Rig.setup, hs],
    fun h => ?_, fun hs => ?_⟩
  · rw [control_healthy h]
    exact startSwitch_exists _ _ r
  · rw [setup_fresh hs]
    exact issue_exists _ wiperDone_exists

/-! ### The speed mapping (R147) -/

/-- The three branches of `speed_to_wiper`, in order. -/
theorem speedToWiper_nonpos {level : Int} (count : Int) (h : level ≤ 0) : speedToWiper level count = 0 := if_pos h

theorem speedToWiper_top {level count : Int} (h : 0 < level) (hc : count ≤ level) : speedToWiper level count = 128 := by
  rw [speedToWiper, if_neg (by omega), if_pos hc]

theorem speedToWiper_between {level count : Int} (h : 0 < level) (hc : level < count) :
    (speedToWiper level count : Int) = max 1 (level * 128 / count) ∧ level * 128 / count ≤ 127 := by
  have hpos : 0 < count := by omega
  have hnonneg : 0 ≤ level * 128 / count := Int.ediv_nonneg (by omega) (by omega)
  have hle : level * 128 / count < 128 := Int.ediv_lt_of_lt_mul hpos (by omega)
  refine ⟨?_, by omega⟩
  rw [speedToWiper, if_neg (by omega), if_neg (by omega)]
  split
  · rename_i h0; rw [h0]; rfl
  · rw [Int.toNat_of_nonneg hnonneg]
    omega

theorem speedToWiper_le (level count : Int) : speedToWiper level count ≤ 128 := by
  by_cases h : level ≤ 0
  · rw [speedToWiper_nonpos count h]; omega
  · by_cases hc : count ≤ level
    · rw [speedToWiper_top (by omega) hc]
    · obtain ⟨e, hle⟩ := speedToWiper_between (level := level) (count := count) (by omega) (by omega)
      omega

/-- The wiper value as the operand of WRW. -/
theorem speedToWiper_toNat (level count : Int) : (BitVec.ofNat 8 (speedToWiper level count)).toNat = speedToWiper level count := by
  have := speedToWiper_le level count
  rw [BitVec.toNat_ofNat]
  omega

/-- The operand of the speed write is in range (R147). -/
theorem speedOperand_le (level count : Int) : (BitVec.ofNat 8 (speedToWiper level count)).toNat ≤ 128 := by
  rw [speedToWiper_toNat]; exact speedToWiper_le level count

/-- A WRW in range ends with OK or with a failed byte (R100). -/
theorem wrw_in_range_status {v : Byte} {s t : State} (hq : s.sq = .idle) (hv : v.toNat ≤ 128) (h : exec (.wrw v) s = .next t)
    (hidle : t.sq = .idle) : t.status = .ok ∨ t.status = .transportFailure := by
  rw [exec_request (i := .wrw v) rfl, request_selecting (op := 0#3) hq (wrwCheck_proceed fun _ => hv)] at h
  cases h
  by_cases hf : (runSteps (requestProgram 0#3) 6 (s.selecting 0#3 v (saturate v))).status = .transportFailure
  · exact .inr hf
  · obtain ⟨hd, h1, h2⟩ := runSteps_w2_inversion (m := requestProgram 0#3) (s := s.selecting _ _ _) rfl rfl hidle hf
    rw [run_w2_through (m := requestProgram 0#3) (s := s.selecting _ _ _) rfl rfl rfl hd h1 h2]
    exact .inl rfl

/-- Settles O50. -/
theorem speedToWiperStaysInRange : Obligations.SpeedToWiperStaysInRange := by
  intro level count
  refine ⟨speedToWiper_nonpos count, speedToWiper_top, fun h hc => ?_, speedToWiper_le level count, fun s t hq h hidle => ?_⟩
  · obtain ⟨e, hle⟩ := speedToWiper_between h hc
    have hzero : level * 128 / count = 0 ↔ level * 128 < count := by
      constructor
      · intro h0
        have := Int.lt_ediv_add_one_mul_self (level * 128) (show 0 < count by omega)
        rw [h0] at this
        omega
      · exact fun hlt => Int.ediv_eq_zero_of_lt (by omega) hlt
    exact ⟨by omega, e, hzero, by omega, by omega⟩
  · rcases wrw_in_range_status hq (speedOperand_le level count) h hidle with e | e <;> simp [e]

end Sys2Proof.Machine
end

section
/-! PROOF. Calls of the documented host where the transport answers, and where it confirms every byte or all but one
(spec/47_host_fan_adapter.md R143 to R148). -/

namespace Sys2Proof.Machine

/-! ### Operations whose bytes all go through, from where they stand (R84) -/

/-- A primitive that the transport completes and confirms. -/
theorem primitive_lucky {p : Prim} {s : State} (h : (s.answerAt 0).done = true ∧ (s.answerAt 0).ok = true) :
    ∃ t b, primitive p s = .done t true b ∧ t.fail = s.fail := by
  obtain ⟨hd, hok⟩ := h
  cases p <;> simp [primitive, hd, hok]

/-- A step of the frame has a primitive (R90). -/
theorem currentPrim_of_inFormat {m : MicroProgram} {s : State} (h : s.sq.inFormat m.format = true) :
    ∃ p, currentPrim m s = some p := by
  unfold currentPrim bytePrim
  cases hq : s.sq <;> cases hf : m.format <;> simp_all [Sq.inFormat]

/-- A run from a step of its frame whose answers are all good comes to its commit with no failed byte, and uses one answer for each
primitive left (R84, R194). -/
theorem run_lucky (m : MicroProgram) : ∀ (n : Nat) (s : State), s.sq.inFormat m.format = true → s.fail = false →
    stepsLeft m.format s.sq ≤ n → s.Lucky (stepsLeft m.format s.sq) →
    ∃ v, Unmoved s v ∧ v.sel = false ∧ v.fail = false ∧ (∀ k, v.answerAt k = s.answerAt (k + stepsLeft m.format s.sq)) ∧
      runSteps m n s = commit m v := by
  intro n
  induction n with
  | zero =>
    intro s hi _ hle _
    exfalso
    revert hi hle; generalize s.sq = q; generalize m.format = f; cases q <;> cases f <;> decide
  | succ n ih =>
    intro s hi hf hle hl
    by_cases hq : s.sq = .finish
    · have hone : stepsLeft m.format s.sq = 1 := by rw [hq]; rfl
      rw [hone] at hl ⊢
      exact ⟨s.closed, unmoved_closed s, by simp, by simp [hf], by simp, runSteps_finish hq (hl 0 (by omega)).1 n⟩
    · obtain ⟨hstep, htwo, hnext⟩ := stepsLeft_next hi hq
      obtain ⟨p, hp⟩ := currentPrim_of_inFormat hi
      obtain ⟨t, b, hr, htf⟩ := primitive_lucky (p := p) (hl 0 (by omega))
      obtain ⟨hu, hans, -⟩ := primitive_done hr
      obtain ⟨hlatch, -, hlatchFail, -⟩ := latchByte_fields s.sq b t
      have hlatchAns : ∀ k, (latchByte s.sq b t).answerAt k = s.answerAt (k + 1) := fun k => by
        rw [← hans k]; unfold latchByte; split <;> simp
      rw [runSteps_done hp hr, afterPrim, if_neg hq, if_pos rfl]
      obtain ⟨v, hv, hsel, hfail, hvans, e⟩ := ih ((latchByte s.sq b t).goto (nextSq m.format s.sq)) hnext
        (by rw [goto_fail, hlatchFail, htf, hf]) (by rw [goto_sq]; omega)
        (fun k hk => by rw [goto_sq] at hk; rw [goto_answerAt, hlatchAns]; exact hl _ (by omega))
      refine ⟨v, ((hu.trans hlatch).trans (unmoved_goto _ _)).trans hv, hsel, hfail, fun k => ?_, e⟩
      rw [hvans, goto_sq, goto_answerAt, hlatchAns, ← hstep, Nat.add_assoc]

/-- A running operation that can still go through: no byte has failed, and it stands in its frame, or at a CHECK that will pass. -/
structure Hopeful (u : State) : Prop where
  fail   : u.fail = false
  stands : (u.sq = .check ∧ ∃ data, u.program.check u.cfg u.arg = .proceed data) ∨
    (u.sq.inFormat u.program.format = true ∧ u.Checked)

/-- `v` is the block at the commit of the operation of `u`, its bracket closed, no byte failed, `j` answers later (R89). -/
structure Commits (u v : State) (j : Nat) : Prop where
  cfg     : v.cfg = u.cfg
  w0      : v.w0 = u.w0
  tc      : v.tc = u.tc
  op      : v.op = u.op
  arg     : v.arg = u.arg
  checked : v.Checked
  sel     : v.sel = false
  fail    : v.fail = false
  answers : ∀ k, v.answerAt k = u.answerAt (k + j)

/-- A frame all of whose answers are good comes to its commit. -/
theorem commits_frame {m : MicroProgram} {u : State} {n : Nat} (hn : 6 ≤ n) (hi : u.sq.inFormat m.format = true)
    (hf : u.fail = false) (hck : u.Checked) (hl : u.Lucky (frameAnswers m.format)) :
    ∃ v, Commits u v (stepsLeft m.format u.sq) ∧ runSteps m n u = commit m v := by
  obtain ⟨v, hv, hsel, hfail, hans, e⟩ := run_lucky m n u hi hf ((stepsLeft_le _ _).trans hn)
    (hl.mono (stepsLeft_le_frameAnswers _ _))
  exact ⟨v, ⟨hv.cfg, hv.w0, hv.tc, hv.op, hv.arg, checked_congr hck hv, hsel, hfail, hans⟩, e⟩

/-- A hopeful operation all of whose answers are good comes to its commit; a whole frame uses all its answers. -/
theorem Hopeful.commits {u : State} (h : Hopeful u) (hl : u.Lucky (frameAnswers u.program.format)) :
    ∃ v j, j ≤ frameAnswers u.program.format ∧ (u.sq = .check → j = frameAnswers u.program.format) ∧ Commits u v j ∧
      u.resume = commit u.program v := by
  rcases h.stands with ⟨hq, data, hc⟩ | ⟨hi, hck⟩
  · have hwhole : stepsLeft u.program.format .select = frameAnswers u.program.format := by cases u.program.format <;> rfl
    rcases run_check (m := u.program) hq 6 with ⟨st, hrej, -⟩ | ⟨data', hc', e⟩
    · simp [hc] at hrej
    · obtain ⟨v, hv, ev⟩ := commits_frame (u := begun data' u) (m := u.program) (le_refl 6) rfl h.fail
        ⟨data', hc', by cases data' <;> rfl⟩ hl
      exact ⟨v, _, hwhole.le, fun _ => hwhole, ⟨hv.cfg, hv.w0, hv.tc, hv.op, hv.arg, hv.checked, hv.sel, hv.fail, hv.answers⟩,
        e.trans ev⟩
  · obtain ⟨v, hv, ev⟩ := commits_frame (m := u.program) (n := maxSteps) (by decide) hi h.fail hck hl
    exact ⟨v, _, stepsLeft_le_frameAnswers _ _, fun hq => by simp [hq, Sq.inFormat] at hi, hv, ev⟩

/-- `t` is `s` after an operation that went through with `j` answers: idle, the bracket closed, status OK (R89). -/
structure WentThrough (s t : State) (j : Nat) : Prop where
  sq      : t.sq = .idle
  sel     : t.sel = false
  status  : t.status = .ok
  cfg     : t.cfg = s.cfg
  answers : ∀ k, t.answerAt k = s.answerAt (k + j)

theorem WentThrough.lucky {s t : State} {j n : Nat} (h : WentThrough s t j) (hl : s.Lucky (n + j)) : t.Lucky n :=
  fun k hk => by rw [h.answers]; exact hl (k + j) (by omega)

/-- A commit with status OK ends an operation that went through. -/
theorem Commits.wentThrough {u v : State} {j : Nat} (h : Commits u v j) (hok : (commit u.program v).status = .ok) :
    WentThrough u (commit u.program v) j := by
  obtain ⟨hcfg, hsq, -, -, -, -, -, -, hsel, -, -, -, htin, hlink, -, -, htick, -⟩ := commit_all u.op v
  exact ⟨hsq, hsel.trans h.sel, hok, hcfg.trans h.cfg, fun k => (answerAt_congr htin htick hlink k).trans (h.answers k)⟩

/-- A hopeful WRW all of whose answers are good stores its operand, brought into range (R100). -/
theorem Hopeful.wrw {u : State} (h : Hopeful u) (ho : u.op = 0#3) (hl : u.Lucky 4) :
    ∃ j, j ≤ 4 ∧ (u.sq = .check → j = 4) ∧ WentThrough u u.resume j ∧ u.resume.w0 = saturate u.arg ∧ u.resume.tc = u.tc := by
  have hf : frameAnswers u.program.format = 4 := by rw [State.program, ho]; rfl
  obtain ⟨v, j, hj, hcheck, hv, e⟩ := h.commits (hf ▸ hl)
  rw [hf] at hj hcheck
  have hvo : v.op = 0#3 := hv.op.trans ho
  have hcases := commit_cases hv.checked hv.fail
  simp only [program_congr hv.op, hvo] at hcases
  obtain ⟨-, hok, hw0, htc⟩ := hcases.resolve_right (by simp [terminalOp])
  refine ⟨j, hj, hcheck, e ▸ hv.wentThrough hok, ?_, by rw [e, htc, hv.tc]⟩
  rw [e, hw0, checked_wrw hv.checked hvo, hv.arg]

/-- A hopeful ENT or DIST all of whose answers are good connects or disconnects the three terminals (R131, R132). -/
theorem Hopeful.switch {u : State} {b : Bool} (h : Hopeful u) (ho : u.op = if b then 5#3 else 6#3) (hl : u.Lucky 4) :
    ∃ j, j ≤ 4 ∧ (u.sq = .check → j = 4) ∧ WentThrough u u.resume j ∧ u.resume.w0 = u.w0 ∧ u.resume.tc = some ⟨b, b, b⟩ := by
  have hf : frameAnswers u.program.format = 4 := by rw [State.program, ho]; cases b <;> rfl
  obtain ⟨v, j, hj, hcheck, hv, e⟩ := h.commits (hf ▸ hl)
  rw [hf] at hj hcheck
  have hvo : v.op = if b then 5#3 else 6#3 := hv.op.trans ho
  have hcases := commit_cases hv.checked hv.fail
  simp only [program_congr hv.op] at hcases
  have hterminal : (commit u.program v).status = .ok ∧ (commit u.program v).w0 = v.w0 ∧
      (commit u.program v).tc = some ⟨b, b, b⟩ := by
    rcases hcases with ⟨h0, -⟩ | ⟨h1, -⟩ | ⟨h2, -⟩ | ⟨h3, -⟩ | ⟨-, -, hok, hw0, tm, htc, -, -, h5, h6⟩
    · cases b <;> simp [hvo] at h0
    · cases b <;> simp [hvo] at h1
    · cases b <;> simp [hvo] at h2
    · cases b <;> simp [hvo] at h3
    · cases b
      · exact ⟨hok, hw0, htc.trans (congrArg some (h6 hvo))⟩
      · exact ⟨hok, hw0, htc.trans (congrArg some (h5 hvo))⟩
  obtain ⟨hok, hw0, htc⟩ := hterminal
  exact ⟨j, hj, hcheck, e ▸ hv.wentThrough hok, by rw [e, hw0, hv.w0], by rw [e, htc]⟩

/-- A request just accepted whose CHECK passes is hopeful. -/
theorem hopeful_accept {op : BitVec 3} {arg : Byte} {s : State} {data : Option Byte}
    (hc : (requestProgram op).check s.cfg arg = .proceed data) : Hopeful (s.accept op arg) :=
  ⟨rfl, .inl ⟨rfl, data, hc⟩⟩

/-- A host request runs from its accepted state (R83). -/
theorem exec_accept {i : Instr} {op : BitVec 3} {arg : Byte} {s : State} (hi : hostRequest i = some (op, arg))
    (hq : s.sq = .idle) : exec i s = .next (s.accept op arg).resume :=
  (exec_request hi s).trans (if_pos hq)

/-- What goes through from an accepted request goes through from the idle block. -/
theorem WentThrough.of_accept {op : BitVec 3} {arg : Byte} {s t : State} {j : Nat} (h : WentThrough (s.accept op arg) t j) :
    WentThrough s t j :=
  ⟨h.sq, h.sel, h.status, h.cfg, h.answers⟩

/-- WRW in range, every answer good. -/
theorem exec_wrw_lucky {v : Byte} {s : State} (hq : s.sq = .idle) (hv : v.toNat ≤ 128) (hl : s.Lucky 4) :
    ∃ t, exec (.wrw v) s = .next t ∧ WentThrough s t 4 ∧ t.w0 = v ∧ t.tc = s.tc := by
  have hh : Hopeful (s.accept 0#3 v) := hopeful_accept (op := 0#3) (wrwCheck_proceed fun _ => hv)
  obtain ⟨j, -, hj, ht, hw0, htc⟩ := hh.wrw rfl hl
  cases hj rfl
  exact ⟨_, exec_accept rfl hq, ht.of_accept, hw0.trans (saturate_of_le hv), htc⟩

/-- The request of the on/off part: On is ENT, Off is DIST (R145). -/
theorem hostRequest_switch (b : Bool) :
    hostRequest (if b then .ent 0#8 else .dist 0#8) = some (if b then 5#3 else 6#3, 0#8) := by
  cases b <;> rfl

/-- It passes CHECK in the strict variant (R130). -/
theorem switch_check {c : Config} (hB : c.variant = .B) (b : Bool) (arg : Byte) :
    (requestProgram (if b then 5#3 else 6#3)).check c arg = .proceed (some (tconByte ⟨b, b, b⟩)) := by
  cases b <;> exact terminalCheck_strict hB _

/-- ENT or DIST in the strict variant, every answer good. -/
theorem exec_switch_lucky {s : State} (b : Bool) (hq : s.sq = .idle) (hB : s.cfg.variant = .B) (hl : s.Lucky 4) :
    ∃ t, exec (if b then .ent 0#8 else .dist 0#8) s = .next t ∧ WentThrough s t 4 ∧ t.w0 = s.w0 ∧ t.tc = some ⟨b, b, b⟩ := by
  have hh : Hopeful (s.accept (if b then 5#3 else 6#3) 0#8) := hopeful_accept (switch_check hB b 0#8)
  obtain ⟨j, -, hj, ht, hw0, htc⟩ := hh.switch rfl hl
  cases hj rfl
  exact ⟨_, exec_accept (hostRequest_switch b) hq, ht.of_accept, hw0, htc⟩

/-- An operation the adapter waits for is hopeful, its CHECK passed or going to pass. -/
theorem Rig.Awaits.hopeful {r : Rig} {k : Task} {op : BitVec 3} {data : Option Byte} (h : r.Awaits k op)
    (hc : (requestProgram op).check r.dpc.cfg r.dpc.arg = .proceed data) : Hopeful r.dpc := by
  obtain ⟨-, hinv, hb, rfl, hf⟩ := h
  refine ⟨hf, ?_⟩
  by_cases hp : r.dpc.sq.pastCheck = true
  · exact .inr ⟨hinv.in_frame hp, hinv.checked hp⟩
  · refine .inl ⟨?_, data, hc⟩
    cases hq : r.dpc.sq <;> simp_all [Sq.pastCheck]

end Sys2Proof.Machine
end

section
/-! PROOF. Whole calls of the documented host (spec/47_host_fan_adapter.md R143 to R148): setup, the two parts of a control request,
and their independence. -/

namespace Sys2Proof.Machine

/-- An issued operation with its result: the task goes on (R140). -/
theorem issue_done {i : Instr} {k : Task} {go : Rig → Host.Outcome Rig Fault Refusal} {s t : State} {f : Fan}
    {calls : List Call} (h : exec i s = .next t) (hq : t.sq = .idle) :
    Rig.issue i k go ⟨s, f, calls⟩ = go ⟨t, f.become k, calls⟩ := by
  rcases issue_cases (k := k) (go := go) (r := ⟨s, f, calls⟩) h with ⟨-, e⟩ | ⟨hn, -⟩
  · exact e
  · exact absurd hq hn

/-! ### Setup (R143) -/

/-- What a setup begun after a change of the task comes to is a setup from before it. -/
theorem Rig.WellSetUp.of_eq {r u r' : Rig} (h : u.WellSetUp r') (hcfg : u.dpc.cfg = r.dpc.cfg) (htc : u.dpc.tc = r.dpc.tc)
    (hfan : { u.fan with on := false, cachedWiper := some 0#8, setUp := true, task := .ready } =
      { r.fan with on := false, cachedWiper := some 0#8, setUp := true, task := .ready }) (hcalls : u.calls = r.calls) :
    r.WellSetUp r' := by
  obtain ⟨hw0, hq, hsel, hB, hA, hf, hc⟩ := h
  rw [hcfg] at hB hA
  rw [htc] at hA
  exact ⟨hw0, hq, hsel, hB, hA, hf.trans hfan, hc.trans hcalls⟩

/-- The adapter's fields after a setup both of whose bus calls went well. -/
theorem setupResult_ok {f : Fan} (hc : f.cachedWiper = some 0#8) (hs : f.setUp = true) :
    f.setupResult .ok true = { f with on := false, cachedWiper := some 0#8, setUp := true, task := .ready } := by
  simp [Fan.setupResult, hc, hs]

/-- Setup goes on after a WRW 0 that went well, every answer to DIST good. -/
theorem wiperDone_lucky {r : Rig} (hq : r.dpc.sq = .idle) (hsel : r.dpc.sel = false) (hok : r.dpc.status = .ok)
    (hw0 : r.dpc.w0 = 0#8) (hset : r.fan.setUp = true) (hl : r.dpc.Lucky 4) : ∃ r', r.wiperDone = .next r' ∧ r.WellSetUp r' := by
  unfold Rig.wiperDone
  cases hv : r.dpc.cfg.variant with
  | A =>
    refine ⟨_, rfl, hw0, hq, hsel, by simp [hv], fun _ => rfl, ?_, rfl⟩
    rw [hok]
    exact setupResult_ok (by simp) (by simp [hset])
  | B =>
    obtain ⟨t, hexec, ht, htw0, httc⟩ := exec_switch_lucky false hq hv hl
    simp only
    rw [issue_done (i := .dist 0#8) hexec ht.sq, hok]
    refine ⟨_, rfl, htw0.trans hw0, ht.sq, ht.sel, fun _ => httc, by simp [hv], ?_, rfl⟩
    rw [ht.status]
    exact setupResult_ok (f := (r.fan.zeroResult .ok).become _) (by simp) (by simp [hset])

/-- A whole setup, every answer good. -/
theorem setup_lucky {r : Rig} (hq : r.dpc.sq = .idle) (hset : r.fan.setUp = false) (hl : r.dpc.Lucky 8) :
    ∃ r', r.setup = .next r' ∧ r.WellSetUp r' := by
  obtain ⟨t, hexec, ht, hw0, htc⟩ := exec_wrw_lucky (v := 0#8) hq (by decide) (hl.mono (by omega))
  rw [setup_fresh hset, issue_done hexec ht.sq]
  obtain ⟨r', e, hwell⟩ := wiperDone_lucky (r := ⟨t, { r.fan with setUp := true }.become .setupWiper, r.calls⟩) ht.sq ht.sel
    ht.status hw0 rfl (ht.lucky (hl.mono (by omega)))
  exact ⟨r', e, hwell.of_eq ht.cfg htc rfl rfl⟩

/-- A setup that waited for WRW 0, every answer good from there. -/
theorem setupWiper_lucky {r : Rig} (h : r.Awaits .setupWiper 0#3) (harg : r.dpc.arg = 0#8) (hset : r.fan.setUp = true)
    (hl : r.dpc.Lucky 8) : ∃ r', r.step = .next r' ∧ r.WellSetUp r' := by
  have hh : Hopeful r.dpc := h.hopeful (wrwCheck_proceed fun _ => by rw [harg]; decide)
  obtain ⟨htask, -, -, ho, -⟩ := h
  obtain ⟨j, hj, -, ht, hw0, htc⟩ := hh.wrw ho (hl.mono (by omega))
  have hzero : r.dpc.resume.w0 = 0#8 := by rw [hw0, harg]; rfl
  obtain ⟨r', e, hwell⟩ := wiperDone_lucky (r := { r with dpc := r.dpc.resume }) ht.sq ht.sel ht.status hzero hset
    (ht.lucky (hl.mono (by omega)))
  refine ⟨r', ?_, hwell.of_eq ht.cfg htc rfl rfl⟩
  rw [rig_step_proceeds (by simp [htask]) ht.sq, Rig.proceed]
  simpa only [htask] using e

/-- A setup that waited for DIST after a WRW 0 that went well, every answer good from there. -/
theorem setupTerminals_lucky {r : Rig} (h : r.Awaits (.setupTerminals .ok) 6#3) (hB : r.dpc.cfg.variant = .B)
    (hw0 : r.dpc.w0 = 0#8) (hset : r.fan.setUp = true) (hcur : r.fan.Current) (hl : r.dpc.Lucky 4) :
    ∃ r', r.step = .next r' ∧ r.WellSetUp r' := by
  have hh : Hopeful r.dpc := h.hopeful (switch_check hB false r.dpc.arg)
  obtain ⟨htask, -, -, ho, -⟩ := h
  obtain ⟨j, -, -, ht, htw0, httc⟩ := hh.switch (b := false) ho hl
  refine ⟨{ r with dpc := r.dpc.resume, fan := r.fan.setupResult .ok (decide (r.dpc.resume.status = .ok)) }, ?_,
    htw0.trans hw0, ht.sq, ht.sel, fun _ => httc, by simp [hB], ?_, rfl⟩
  · rw [rig_step_proceeds (by simp [htask]) ht.sq, Rig.proceed]
    simp only [htask]
    rfl
  · rw [ht.status]
    exact setupResult_ok (hcur htask) hset

/-- Every step keeps what the adapter that waits for DIST holds. -/
theorem rig_step_current {r r' : Rig} (h : r.step = .next r') (hcur : r.fan.Current) : r'.fan.Current := by
  cases rig_step_effect h with
  | rests _ _ e => exact e ▸ hcur
  | waits _ e => subst e; exact hcur
  | control u _ _ _ he => exact fun ht => absurd ht (he.task .ok)
  | setup u _ _ _ he _ => exact he.current

/-- Settles O52: WRW 0 and then DIST, each at once or taken up again; the cached value follows WRW 0. -/
theorem fanSetupLeavesTheFanOff : Obligations.FanSetupLeavesTheFanOff := by
  refine ⟨fun r _ hq _ => setup_lucky hq, fun r => setupWiper_lucky, fun r => setupTerminals_lucky, fun r r' s h hs => ?_,
    fun r r' h ht => ?_, fun r r' w h ht => ?_, fun c n r h ht => ?_, fun r r' => rig_step_current⟩
  · obtain ⟨-, s', hs', ⟨hq, hgo⟩ | ⟨hn, rfl⟩⟩ := setup_cases h <;> cases hs'.symm.trans hs
    · simpa [hq] using (wiperDone_effect hgo).2.1
    · simp [hn]
  · by_cases hq : r.dpc.resume.sq = .idle
    · simpa [hq] using (wiperDone_effect (rig_step_setupWiper h ht hq)).2.1
    · rw [rig_step_waits (by simp [ht]) hq] at h
      cases h
      simp [hq]
  · by_cases hq : r.dpc.resume.sq = .idle
    · cases rig_step_setupTerminals h ht hq
      rfl
    · rw [rig_step_waits (by simp [ht]) hq] at h
      cases h
      rfl
  · by_cases hc : c.wf
    · rw [create_wf hc] at h
      cases h
      cases ht
    · rw [create_illFormed hc] at h
      cases h

/-! ### Calls end when the transport answers (R193) -/

/-- The call of `r` is over at `r'`: the adapter ready, its block idle, no call taken. -/
structure CallEnded (r r' : Rig) : Prop where
  task  : r'.fan.task = .ready
  sq    : r'.dpc.sq = .idle
  calls : r'.calls = r.calls

/-- What is left of the premise of R193 after an operation. -/
theorem EndedWithin.prompt {s t : State} {m n : Nat} (h : EndedWithin n s t) (hp : s.Prompt (m + n)) : t.Prompt m := by
  obtain ⟨-, j, hj, hans⟩ := h
  exact fun k hk => by rw [hans]; exact hp _ (by omega)

theorem startSpeed_ends {r : Rig} (speed : Option Int) (hq : r.dpc.sq = .idle) (hp : r.dpc.Prompt 4) :
    ∃ r', r.startSpeed speed = .next r' ∧ CallEnded r r' := by
  cases speed with
  | none => exact ⟨_, rfl, rfl, hq, rfl⟩
  | some level =>
    obtain ⟨t, hexec, ht⟩ := request_ends (i := .wrw (BitVec.ofNat 8 (speedToWiper level r.fan.speedCount))) (op := 0#3) rfl hq hp
    exact ⟨_, issue_done hexec ht.1, rfl, ht.1, rfl⟩

theorem startSwitch_ends {r : Rig} (on : Option Bool) (speed : Option Int) (hq : r.dpc.sq = .idle) (hp : r.dpc.Prompt 8) :
    ∃ r', r.startSwitch on speed = .next r' ∧ CallEnded r r' := by
  cases on with
  | none => exact startSpeed_ends speed hq (hp.mono (by omega))
  | some v =>
    have hf : frameAnswers (requestProgram (if v then 5#3 else 6#3)).format = 4 := by cases v <;> rfl
    obtain ⟨t, hexec, ht⟩ := request_ends (hostRequest_switch v) hq (hf ▸ hp.mono (by omega))
    rw [hf] at ht
    obtain ⟨r', e, hend⟩ := startSpeed_ends (r := ⟨t, (r.fan.become (.switching v speed)).switchResult v t.status, r.calls⟩) speed
      ht.1 (ht.prompt hp)
    exact ⟨r', (issue_done hexec ht.1).trans e, hend.task, hend.sq, hend.calls⟩

theorem wiperDone_ends {r : Rig} (hq : r.dpc.sq = .idle) (hp : r.dpc.Prompt 4) : ∃ r', r.wiperDone = .next r' ∧ CallEnded r r' := by
  unfold Rig.wiperDone
  cases r.dpc.cfg.variant
  · exact ⟨_, rfl, rfl, hq, rfl⟩
  · obtain ⟨t, hexec, ht⟩ := request_ends (i := .dist 0#8) (op := 6#3) rfl hq hp
    exact ⟨_, issue_done hexec ht.1, rfl, ht.1, rfl⟩

theorem setup_ends {r : Rig} (hset : r.fan.setUp = false) (hq : r.dpc.sq = .idle) (hp : r.dpc.Prompt 8) :
    ∃ r', r.setup = .next r' ∧ CallEnded r r' := by
  obtain ⟨t, hexec, ht⟩ := request_ends (i := .wrw 0#8) (op := 0#3) rfl hq (hp.mono (by decide))
  obtain ⟨r', e, hend⟩ := wiperDone_ends (r := ⟨t, { r.fan with setUp := true }.become .setupWiper, r.calls⟩) ht.1 (ht.prompt hp)
  exact ⟨r', by rw [setup_fresh hset, issue_done hexec ht.1]; exact e, hend.task, hend.sq, hend.calls⟩

/-- A task that goes on with its result, once the block is idle, ends the call. -/
theorem proceed_ends {r : Rig} (ht : r.fan.task ≠ .ready) (hq : r.dpc.sq = .idle) (hp : r.dpc.Prompt 4) :
    ∃ r', r.proceed = .next r' ∧ CallEnded r r' := by
  unfold Rig.proceed
  cases htask : r.fan.task with
  | ready => exact absurd htask ht
  | setupWiper => exact wiperDone_ends hq hp
  | setupTerminals w => exact ⟨_, rfl, rfl, hq, rfl⟩
  | switching v speed =>
    obtain ⟨r', e, hend⟩ := startSpeed_ends (r := { r with fan := r.fan.switchResult v r.dpc.status }) speed hq hp
    exact ⟨r', e, hend.task, hend.sq, hend.calls⟩
  | speeding level => exact ⟨_, rfl, rfl, hq, rfl⟩

/-- The next run of a block ends when the transport answers, whether it is busy or idle already. -/
theorem resume_endsWithin {s : State} (h : s.Inv) (hp : s.Prompt 6) : EndedWithin 6 s s.resume := by
  by_cases hq : s.sq = .idle
  · rw [State.resume, runSteps_idle hq]
    exact ⟨hq, 0, by omega, fun _ => rfl⟩
  · have hle := frameAnswers_le s.program.format
    obtain ⟨hidle, j, hj, hans⟩ := resume_ends h hq (hp.mono hle)
    exact ⟨hidle, j, hj.trans hle, hans⟩

/-- Settles O53: by what the adapter is doing. -/
theorem fanWaitsForItsBlock : Obligations.FanWaitsForItsBlock := by
  refine ⟨fun r => rig_step_waits, fun r hinv ht hp => ?_, fun r rest _ hq ht hset hc hp => ?_,
    fun r q rest _ hq hh hc hp => ?_⟩
  · have hend := resume_endsWithin hinv (hp.mono (by omega))
    obtain ⟨r', e, hr'⟩ := proceed_ends (r := { r with dpc := r.dpc.resume }) ht hend.1 (hend.prompt hp)
    exact ⟨r', (rig_step_proceeds ht hend.1).trans e, hr'.task, hr'.sq, hr'.calls⟩
  · obtain ⟨r', e, hr'⟩ := setup_ends (r := { r with calls := rest }) hset hq hp
    exact ⟨r', (rig_step_serves ht hc).trans e, hr'.task, hr'.sq, hr'.calls⟩
  · obtain ⟨r', e, hr'⟩ := startSwitch_ends (r := { r with calls := rest }) q.on q.speed hq hp
    refine ⟨r', (rig_step_serves hh.2.2 hc).trans ?_, hr'.task, hr'.sq, hr'.calls⟩
    exact (control_healthy (r := { r with calls := rest }) hh q).trans e

/-! ### The on/off part (R145) -/

/-- ENT or DIST in the strict variant that goes through (R131, R132). -/
theorem switch_completes (b : Bool) {s : State} (hc : s.cfg.wf) (hq : s.sq = .idle) (hB : s.cfg.variant = .B) (hl : s.Lucky 4) :
    TerminalWritten s (if b then 5#3 else 6#3) 0#8 ⟨b, b, b⟩ (if b then 0xFF#8 else 0xF1#8)
      (exec (if b then .ent 0#8 else .dist 0#8) s) := by
  cases b
  · exact distCompletes 0#8 s hc hq hB hl
  · exact entCompletes 0#8 s hc hq hB hl

/-- A ready adapter is unchanged by a task it goes over to and comes back from. -/
theorem fan_ready {f : Fan} (h : f.task = .ready) : { f with task := .ready } = f := by rw [← h]

/-- Settles O56. -/
theorem fanSwitchPart : Obligations.FanSwitchPart := by
  refine ⟨fun r v hc hB hq hh hl => ?_, fun r r' v speed u h hu => ?_, fun r r' v speed h ht => ?_⟩
  · obtain ⟨p, hp, e⟩ := switch_completes v hc hq hB hl
    refine ⟨_, (control_healthy hh _).trans (issue_done e rfl), ?_, rfl, p, hp, rfl⟩
    exact congrArg (fun f : Fan => { f with on := v, published := r.fan.published ++ [(v, r.fan.speedLevel)] }) (fan_ready hh.2.2)
  · obtain ⟨s, hs, hor⟩ := startSwitch_cases h
    cases hs.symm.trans hu
    rcases hor with ⟨hq, hgo⟩ | ⟨hn, rfl⟩
    · exact ⟨fun _ => (switchDone_effect hgo).2, fun hb => absurd hq hb⟩
    · exact ⟨fun hq => absurd hq hn, fun _ => rfl⟩
  · have htask : r.fan.task ≠ .ready := by simp [ht]
    refine ⟨fun hq => ?_, fun hq => ?_⟩
    · rw [rig_step_proceeds htask hq, Rig.proceed] at h
      simp only [ht] at h
      exact (switchDone_effect h).2
    · rw [rig_step_waits htask hq] at h
      cases h
      rfl

/-! ### The speed part (R146) -/

/-- The adapter after a speed write with its result, from a task `k` it went over to. -/
theorem speedResult_publish (f : Fan) (k : Task) (level : Int) (st : Status) :
    (st = .ok → ((f.become k).speedResult level st).publish = { f with
      speedLevel := level, cachedWiper := some (BitVec.ofNat 8 (speedToWiper level f.speedCount)), task := .ready,
      published := f.published ++ [(f.on, level)] }) ∧
    (st ≠ .ok → ((f.become k).speedResult level st).publish =
      { f with task := .ready, published := f.published ++ [(f.on, f.speedLevel)] }) := by
  constructor <;> intro h <;> simp [Fan.speedResult, h, Fan.publish, Fan.become]

/-- A speed write, every answer good, after an on/off part that left the flag at `r.fan.on` (R146). -/
theorem startSpeed_lucky {r : Rig} (level : Int) (hq : r.dpc.sq = .idle) (hl : r.dpc.Lucky 4) :
    ∃ r', r.startSpeed (some level) = .next r' ∧ r.SpeedSet r.fan.on level r' ∧ r'.dpc.tc = r.dpc.tc := by
  obtain ⟨t, hexec, ht, hw0, htc⟩ := exec_wrw_lucky hq (speedOperand_le level r.fan.speedCount) hl
  refine ⟨_, issue_done hexec ht.sq, ⟨?_, ht.sq, ?_, rfl⟩, htc⟩
  · rw [hw0, speedToWiper_toNat]
  · exact (speedResult_publish r.fan (.speeding level) level t.status).1 ht.status

/-- The speed part after a terminal write that went well (R144). -/
theorem switchDone_lucky {r : Rig} (v : Bool) (level : Int) (hq : r.dpc.sq = .idle) (hok : r.dpc.status = .ok)
    (hl : r.dpc.Lucky 4) :
    ∃ r', r.switchDone v (some level) = .next r' ∧ r.SpeedSet v level r' ∧ r'.dpc.tc = r.dpc.tc := by
  have hfan : r.fan.switchResult v r.dpc.status = { r.fan with on := v } := by rw [Fan.switchResult, if_pos hok]
  rw [Rig.switchDone, hfan]
  exact startSpeed_lucky (r := { r with fan := { r.fan with on := v } }) level hq hl

/-- Settles O57. -/
theorem fanSpeedPart : Obligations.FanSpeedPart := by
  refine ⟨fun r r' level h => ?_, fun r r' level h ht => ?_, fun r level _ hq hh hl => ?_, fun r v level _ hB hq hh hl => ?_,
    fun r v level h hB hl => ?_, fun r hh => ?_⟩
  · rcases startSpeed_cases h with ⟨hn, -⟩ | ⟨level', s, hsome, hs, hor⟩
    · cases hn
    · cases hsome
      obtain ⟨hok, hne⟩ := speedResult_publish r.fan (.speeding level) level s.status
      rcases hor with ⟨hq, rfl⟩ | ⟨hq, rfl⟩
      · exact ⟨hs, fun hn => absurd hq hn, fun _ => hok, fun _ => hne⟩
      · exact ⟨hs, fun _ => rfl, fun hi => absurd hi hq, fun hi => absurd hi hq⟩
  · have htask : r.fan.task ≠ .ready := by simp [ht]
    by_cases hq : r.dpc.resume.sq = .idle
    · rw [rig_step_proceeds htask hq, Rig.proceed] at h
      simp only [ht] at h
      cases h
      have hsame : r.fan.become (.speeding level) = r.fan := by rw [← ht]; rfl
      obtain ⟨hok, hne⟩ := speedResult_publish r.fan (.speeding level) level r.dpc.resume.status
      rw [hsame] at hok hne
      exact ⟨rfl, fun hn => absurd hq hn, fun _ => hok, fun _ => hne⟩
    · rw [rig_step_waits htask hq] at h
      cases h
      exact ⟨rfl, fun _ => rfl, fun hi => absurd hi hq, fun hi => absurd hi hq⟩
  · rw [control_healthy hh]
    exact startSpeed_lucky level hq hl
  · obtain ⟨t, hexec, ht, -, htc⟩ := exec_switch_lucky v hq hB (hl.mono (by omega))
    obtain ⟨r', e, hset, htc'⟩ := switchDone_lucky (r := ⟨t, r.fan.become (.switching v (some level)), r.calls⟩) v level ht.sq
      ht.status (ht.lucky (hl.mono (by omega)))
    exact ⟨r', (control_healthy hh _).trans ((issue_done hexec ht.sq).trans e), hset, htc'.trans htc⟩
  · have hhope : Hopeful r.dpc := h.hopeful (switch_check hB v r.dpc.arg)
    obtain ⟨htask, -, -, ho, -⟩ := h
    obtain ⟨j, hj, -, ht, -, htc⟩ := hhope.switch ho (hl.mono (by omega))
    obtain ⟨r', e, hset, htc'⟩ := switchDone_lucky (r := { r with dpc := r.dpc.resume }) v level ht.sq ht.status
      (ht.lucky (hl.mono (by omega)))
    refine ⟨r', ?_, hset, htc'.trans htc⟩
    rw [rig_step_proceeds (by simp [htask]) ht.sq, Rig.proceed]
    simpa only [htask] using e
  · rw [control_healthy hh]
    exact congrArg (fun f : Fan => Host.Outcome.next { r with fan := { f with
      published := r.fan.published ++ [(r.fan.on, r.fan.speedLevel)] } }) (fan_ready hh.2.2)

/-! ### The halves of a request are independent (R144) -/

/-- Settles O59: the speed write runs on the answers after those of the failed terminal write. -/
theorem fanSpeedMovesWhenTheTerminalWriteFails : Obligations.FanSpeedMovesWhenTheTerminalWriteFails := by
  intro r v level f _ hB hq hh hf hp hbad hgood
  obtain ⟨t, hexec, ht⟩ := request_w2_fails (op := if v then 5#3 else 6#3) (arg := 0#8) hq (by cases v <;> rfl)
    (switch_check hB v 0#8) hf (hp.mono (by omega)) hbad fun k hk => hgood k (by omega) (by omega)
  rw [← exec_request (hostRequest_switch v)] at hexec
  obtain ⟨j, hfj, hj4, hans⟩ := ht.answers
  have hlucky : t.Lucky 4 := fun k hk => by
    rw [hans]
    exact ⟨hp _ (by omega), hgood _ (by omega) (by omega)⟩
  have hfan : (r.fan.become (.switching v (some level))).switchResult v t.status = r.fan.become (.switching v (some level)) := by
    rw [Fan.switchResult, ht.status, if_neg (by simp)]
  obtain ⟨r', e, ⟨hw0, -, hset, -⟩, htc⟩ := startSpeed_lucky (r := ⟨t, r.fan.become (.switching v (some level)), r.calls⟩) level
    ht.sq hlucky
  refine ⟨r', ?_, by rw [hset]; rfl, by rw [hset], by rw [hset]; rfl, hw0, htc.trans ht.tc, by rw [hset]; rfl⟩
  rw [control_healthy hh]
  refine (issue_done hexec ht.sq).trans ?_
  rw [Rig.switchDone, hfan]
  exact e

/-- Settles O60: the terminal write uses the first four answers; the speed write fails on one of the next. -/
theorem fanOnMovesWhenTheSpeedWriteFails : Obligations.FanOnMovesWhenTheSpeedWriteFails := by
  intro r v level f _ hB hq hh hf hp hbad hgood
  obtain ⟨t, hexec, ht, hw0, htc⟩ := exec_switch_lucky v hq hB fun k hk => ⟨hp k (by omega), hgood k (by omega) (by omega)⟩
  have hans := ht.answers
  obtain ⟨u, hwrite, hu⟩ := request_w2_fails (op := 0#3) (s := t) (f := f - 4) ht.sq rfl
    (wrwCheck_proceed fun _ => speedOperand_le level r.fan.speedCount) (by omega)
    (fun k hk => by rw [hans]; exact hp _ (by omega)) (by rw [hans, show f - 4 + 4 = f by omega]; exact hbad)
    fun k hk => by rw [hans]; exact hgood _ (by omega) (by omega)
  have hfan : (r.fan.become (.switching v (some level))).switchResult v t.status =
      { r.fan with on := v, task := .switching v (some level) } := by
    rw [Fan.switchResult, if_pos ht.status]
    rfl
  have hkept := (speedResult_publish { r.fan with on := v, task := .switching v (some level) } (.speeding level) level u.status).2
    (by rw [hu.status]; simp)
  refine ⟨⟨u, { r.fan with on := v, task := .ready, published := r.fan.published ++ [(v, r.fan.speedLevel)] }, r.calls⟩, ?_, rfl, rfl, rfl,
    hu.w0.trans hw0, hu.tc.trans htc, rfl⟩
  rw [control_healthy hh]
  refine (issue_done hexec ht.sq).trans ?_
  rw [Rig.switchDone, hfan]
  refine (issue_done (i := .wrw _) hwrite hu.sq).trans ?_
  exact congrArg (fun f : Fan => Host.Outcome.next (⟨u, f, r.calls⟩ : Rig)) hkept

end Sys2Proof.Machine
end
